-- ==== Sys2Proof/Word.lean ====
section
/-! DEFINITION. The words of the SV640's two interfaces: bytes, the raw fields of frames and command
blocks (R97, R180), and the moments of the model's clock. -/

namespace Sys2Proof

/-- One byte of a frame or of a block (R76, R179). -/
abbrev Byte := BitVec 8

/-- A moment or a length of time in microseconds; one bit time of the link is 2 µs (R76). -/
abbrev Moment := Nat

/-- The amount field of R97: a sign byte, then twelve BCD digits. -/
abbrev AmountField := BitVec 56

/-- The card reference field of R97: eleven BCD digits, then a filler nibble. -/
abbrev RefField := BitVec 48

/-- The serial and trail number fields of R97: eight BCD digits. -/
abbrev Digits8Field := BitVec 32

/-- The cycle field of R97: six BCD digits. -/
abbrev CycleField := BitVec 24

/-- The tag and hold id fields: 16 bits, binary (R96, R97). -/
abbrev Num2Field := BitVec 16

/-- The till token: 32 bits, binary (R180). -/
abbrev Token := BitVec 32

end Sys2Proof
end

