-- ==== Sys2Proof/Syntax.lean ====
section
/-! DEFINITION. The commands of the block: one constructor per row of spec/opcode_table.json. The operands are
the raw fields of the spec's formats (R96 to R98, R180, R185). Every command carries `t`, the moment at which it
happens (log 1). -/

namespace Sys2Proof

/-- The header fields of a good frame whose kind and body length its command already names (R96). -/
structure RxHeader where
  dest : Byte
  source : Byte
  cycle : CycleField
  senderState : Byte
  tag : Num2Field
  deriving DecidableEq, Repr

/-- A good frame as read from the line: header, kind code and body bytes; the body length field is the body's
own length (R96). -/
structure RxFrame where
  header : RxHeader
  kind : Byte
  body : List Byte
  deriving DecidableEq, Repr

/-- The seventeen setting fields of ENROL, in the order of R185. -/
structure EnrolFields where
  station : BitVec 8
  cardArea : BitVec 16
  holdArea : BitVec 16
  trailArea : BitVec 16
  cardCeiling : AmountField
  floatLimit : AmountField
  exposureLimit : AmountField
  exposureBand : AmountField
  holdLifetime : BitVec 16
  sealWindow : BitVec 16
  requestSpacing : BitVec 8
  retention : BitVec 8
  initialRate : BitVec 16
  initialFee : BitVec 8
  detectEnables : BitVec 16
  latchEnables : BitVec 16
  stopOnError : BitVec 8
  deriving DecidableEq, Repr

/-- The commands: the 75 rows of the table. -/
inductive Instr where
  -- till commands (R180): each is a write transfer whose command block is whole but for digits the part tests
  | enrol (t : Moment) (token : Token) (settings : EnrolFields)
  | join (t : Moment) (token : Token)
  | drain (t : Moment) (token : Token)
  | leave (t : Moment) (token : Token)
  | issue (t : Moment) (token : Token) (amount : AmountField) (validity : CycleField)
  | load (t : Moment) (token : Token) (ref : RefField) (amount : AmountField)
  | cashout (t : Moment) (token : Token) (ref : RefField)
  | freeze (t : Moment) (token : Token) (ref : RefField)
  | thaw (t : Moment) (token : Token) (ref : RefField)
  | enquire (t : Moment) (token : Token) (ref : RefField)
  | authorize (t : Moment) (token : Token) (ref : RefField) (asked least : AmountField)
  | capture (t : Moment) (token : Token) (ref : RefField) (holdId : Num2Field) (amount : AmountField)
  | void (t : Moment) (token : Token) (ref : RefField) (holdId : Num2Field)
  | refund (t : Moment) (token : Token) (ref : RefField) (trail : Digits8Field) (amount : AmountField)
  | closeDay (t : Moment) (token : Token)
  | report (t : Moment) (token : Token)
  | setRate (t : Moment) (token : Token) (rate : BitVec 16) (fee : BitVec 8) (effective : CycleField)
  | readStatement (t : Moment) (token : Token)
  | readResult (t : Moment) (token : Token)
  | peerStatus (t : Moment) (token : Token) (peer : BitVec 8)
  | clearPeer (t : Moment) (token : Token) (peer : BitVec 8)
  | adjust (t : Moment) (token : Token) (peer : BitVec 8) (dR dL : AmountField)
  | status (t : Moment) (token : Token)
  | clearMonitor (t : Moment) (token : Token) (selection : BitVec 16)
  | restart (t : Moment) (token : Token)
  | wipe (t : Moment) (token : Token)
  -- transfers of the terminal port (R179): `mosi` is every byte the till shifts in, the transfer kind first
  | malformedBlock (t : Moment) (mosi : List Byte)
  | writeRefusedBusy (t : Moment) (mosi : List Byte)
  | responseRead (t : Moment) (mosi : List Byte)
  -- good frames of the twelve kinds (R88, R98)
  | askReceived (t : Moment) (h : RxHeader) (ref : RefField) (asked least : AmountField)
  | takeReceived (t : Moment) (h : RxHeader) (holdId : Num2Field) (serial : Digits8Field) (amount : AmountField)
  | freeReceived (t : Moment) (h : RxHeader) (holdId : Num2Field) (serial : Digits8Field)
  | creditReceived (t : Moment) (h : RxHeader) (serial trail : Digits8Field) (amount : AmountField)
  | grantReceived (t : Moment) (h : RxHeader) (holdId : Num2Field) (granted residual available balance : AmountField)
      (expiry : CycleField)
  | takenReceived (t : Moment) (h : RxHeader) (trail : Digits8Field) (captured released : AmountField)
      (booking : CycleField) (balance : AmountField)
  | freedReceived (t : Moment) (h : RxHeader) (released balance available : AmountField)
  | creditedReceived (t : Moment) (h : RxHeader) (trail : Digits8Field) (amount remaining : AmountField)
      (booking : CycleField) (balance : AmountField)
  | refuseReceived (t : Moment) (h : RxHeader) (refusedKind reason : Byte) (value : AmountField)
  | tallyReceived (t : Moment) (h : RxHeader) (cycle : CycleField) (lifeRs lifeLs : AmountField) (marks : Byte)
  | checkReceived (t : Moment) (h : RxHeader)
  | beaconReceived (t : Moment) (h : RxHeader)
  -- other receptions (R85 to R87); `heard` is the bits read from the line, first to last (R76)
  | frameClash (t : Moment) (f : RxFrame)
  | malformedFrame (t : Moment) (f : RxFrame)
  | unreadableHeader (t : Moment) (f : RxFrame)
  | headerOnlyFrame (t : Moment) (f : RxFrame)
  | badFrame (t : Moment) (heard : List Bool)
  | fragment (t : Moment) (heard : List Bool)
  -- the line and the transmitter (R77 to R82)
  | lineIdle (t : Moment)
  | lineBusy (t : Moment)
  | answerStart (t : Moment)
  | requestStart (t : Moment)
  | spacingExpiry (t : Moment)
  | collision (t : Moment)
  | frameSent (t : Moment)
  | requestQueueFill (t : Moment)
  -- timers and steps the blocks make of themselves
  | beaconTime (t : Moment)
  | listenEnd (t : Moment)
  | sendFailedExpiry (t : Moment)
  | answerDroppedExpiry (t : Moment)
  | linkNoiseExpiry (t : Moment)
  | drainComplete (t : Moment)
  | replyTimeout (t : Moment) (tag : Num2Field)
  | resultQueueFill (t : Moment)
  | pendingClose (t : Moment)
  | sweepStep (t : Moment)
  | sealWindowExpiry (t : Moment)
  | makeSeal (t : Moment)
  | deferredSealCompletion (t : Moment)
  | holdDeadline (t : Moment) (holdId : Num2Field)
  | peerAbsentTimeout (t : Moment) (peer : BitVec 8)
  -- starts and supplies (R186 to R190)
  | coldStart (t : Moment)
  | warmStart (t : Moment)
  | nrst (t : Moment) (low : Moment)
  | powerLoss (t : Moment)
  | retentionLoss (t : Moment)
  deriving DecidableEq, Repr

end Sys2Proof
end

