-- ==== Sys2Proof/Decode.lean ====
section
/-! DEFINITION. The commands that words spell: spec/opcode_table.json gives bits to none of its rows, so no word
spells a command. -/

namespace Sys2Proof

/-- The command spelt by the table's bits: none, since no row of the table gives any. -/
def decodeTableWord (_nbits _w : Nat) : Option Instr := none

end Sys2Proof
end

