-- ==== Sys2Proof/Config.lean ====
section
/-! DEFINITION. What the part fixes once (limits and lengths of time of the spec) and the free values the
spec leaves open (random draws, R80 and R89). -/

namespace Sys2Proof.Config

/-- The `n`-th random value of the part: a backoff draw (R80) or the random part of a beacon interval (R89).
The spec says only "drawn at random", so the value is free: no proof can see it (log 6). -/
opaque freeDraw : Nat → Nat

/-- The greatest magnitude of an amount, in minor units (R1). -/
def amountMax : Nat := 999999999999
/-- The greatest card-level amount of a single card, hold, capture or refund (R15). -/
def cardAmountMax : Nat := 9999999
/-- The greatest count (R5) and the greatest cycle number (R137). -/
def countMax : Nat := 999999
/-- The greatest serial (R21) and trail number (R64). -/
def serialMax : Nat := 99999999
/-- The greatest hold id (R41), tag (R102) and statement number (R159). -/
def idMax : Nat := 65535
/-- The greatest station number (R96). -/
def stationMax : Nat := 63
/-- The greatest validity of ISSUE (R20). -/
def validityMax : Nat := 3660
/-- Open holds a card may have (R16). -/
def cardHoldsMax : Nat := 4
/-- Places of the answer queue (R83) and of the request queue (R84). -/
def linkQueueMax : Nat := 16
/-- Places of the Exchange Table (R101) and of the result queue (R182). -/
def exchangesMax : Nat := 32
/-- Places of the ended list (R101). -/
def endedMax : Nat := 64
/-- Configurable cells of the Record Store (R186). -/
def storeCells : Nat := 3584
/-- Attempts after which a colliding frame is discarded (R82). -/
def attemptsMax : Nat := 10
/-- Frames of an exchange before it ends or becomes UNSURE (R108). -/
def sendsMax : Nat := 4
/-- The protocol count that bars a peer (R128). -/
def protocolBar : Nat := 4
/-- Bad frames within `noiseSpan` that make LINK_NOISE true (R85). -/
def noiseFrames : Nat := 16

/-- One bit time (R76), in µs. -/
def bitTime : Moment := 2
/-- Half a bit time: from the beginning of a bit cell to the transition at its middle (R76). -/
def halfBit : Moment := 1
/-- Without a transition for this long the line is idle: 12 bit times (R77). -/
def idleSpan : Moment := 12 * bitTime
/-- The answer gap: 16 bit times (R79). -/
def answerGap : Moment := 16 * bitTime
/-- The request gap: 40 bit times (R80). -/
def requestGap : Moment := 40 * bitTime
/-- One backoff slot: 20 bit times (R80). -/
def slotSpan : Moment := 20 * bitTime
/-- The listen of a JOIN: 2,000 ms (R91). -/
def listenSpan : Moment := 2000000
/-- The least interval between beacon times: 950 ms (R89). -/
def beaconLeast : Moment := 950000
/-- The span of the random part of a beacon interval: 0 to 100 ms (R89). -/
def beaconSpread : Moment := 100000
/-- The last-heard time: 5,000 ms (R121). -/
def absenceSpan : Moment := 5000000
/-- The reply timeout: 50 ms (R107). -/
def replySpan : Moment := 50000
/-- SEND_FAILED, ANSWER_DROPPED and LINK_NOISE look back over 1,000 ms (R82, R83, R85). -/
def noiseSpan : Moment := 1000000
/-- The least time NRST is held low: 10 µs (R188). -/
def resetLow : Moment := 10

end Sys2Proof.Config
end

