-- ==== Sys2Proof/Machine/State.lean ====
section
/-! DEFINITION. The state of one SV640 as plain data, block by block, and the state after reset: what a cold
start leaves (R187). Figures are whole numbers of minor units (R1). -/

namespace Sys2Proof.Machine

/-- A signed total with its saturation mark (R3). -/
structure Total where
  val : Int
  mark : Bool
  deriving DecidableEq, Repr

/-- A count of 0 to 999,999 with its saturation mark (R3, R5). -/
structure Count where
  n : Nat
  mark : Bool
  deriving DecidableEq, Repr

/-- Zero with a clear mark. -/
def Total.zero : Total := ⟨0, false⟩
/-- Zero with a clear mark. -/
def Count.zero : Count := ⟨0, false⟩

/-! ### Names of reasons, statuses and states -/

/-- The reasons of a REFUSE (R98), with the codes of `Reason.code`. -/
inductive Reason where
  | unknownCard | cardFrozen | cardClosed | cardLapsed | funds | cardHoldsFull | holdTableFull
  | exposure | peerBarred | stationStopped | draining | tagConflict | unknownHold
  | holdEnded | amount | trailFull | unknownCapture | notRedeemer | overRefund | ceiling | malformed
  deriving DecidableEq, Repr

/-- The statuses of a response (R181). -/
inductive Status where
  | ok
  | reason (r : Reason)
  | waiting
  | badReference | notHome | homeAbsent | homeUnknown | notActive | exchangesFull
  | floatLimit | cardTableFull | serialsExhausted | cardHoldsOpen | slotsFull | closePending
  | cycleLimit | scheduleFull | pastCycle | busy | notEnrolled | alreadyEnrolled | badSetting
  | notEmpty | nothing
  deriving DecidableEq, Repr

/-- The four states of a card (R18). -/
inductive CardState where
  | active | frozen | closed | lapsed
  deriving DecidableEq, Repr

/-- The four states of a hold (R40); `held` is the spec's OPEN. -/
inductive HoldState where
  | held | captured | freed | lapsed
  deriving DecidableEq, Repr

/-- The four states of an exchange (R105). -/
inductive ExState where
  | queued | waiting | unsure | done
  deriving DecidableEq, Repr

/-- The kinds of an exchange (R100). -/
inductive ExKind where
  | hold | probe | capture | void | refund
  deriving DecidableEq, Repr

/-- How an exchange ended (R101). -/
inductive Ending where
  | grant | taken | freed | credited | refuse | noAnswer
  deriving DecidableEq, Repr

/-- The station states (R90). -/
inductive StationState where
  | offline | listening | active | draining | withdrawn
  deriving DecidableEq, Repr

/-- The sender states a header can carry (R96). -/
inductive SenderState where
  | active | draining
  deriving DecidableEq, Repr

/-- Presence of a peer (R121). -/
inductive Presence where
  | unknown | present | absent
  deriving DecidableEq, Repr

/-- Standing of a peer (R127). -/
inductive Standing where
  | good | watch | barred | recheck
  deriving DecidableEq, Repr

/-- Phases of the Cycle Controller (R139). -/
inductive Phase where
  | steady | sweeping | sealing | deferred
  deriving DecidableEq, Repr

/-- The two statement slots (R159). -/
inductive SlotNo where
  | one | two
  deriving DecidableEq, Repr

/-- The kinds of a statement (R157). -/
inductive StatementKind where
  | sealed | report
  deriving DecidableEq, Repr

/-- The direction of the net (R157). -/
inductive Direction where
  | mallPays | stationPays
  deriving DecidableEq, Repr

/-- The port states (R179). -/
inductive PortState where
  | idle | working | ready | starting
  deriving DecidableEq, Repr

/-! ### Card Table, Hold Table, Capture Trail -/

/-- A card record (R16). -/
structure Card where
  serial : Nat
  state : CardState
  balance : Nat
  held : Nat
  openHolds : Nat
  expiry : Option Nat
  lastChange : Nat
  sweepMark : Nat
  deriving DecidableEq, Repr

/-- The four own totals of a cycle set (R30): S, U, X and Q. -/
structure OwnTotals where
  s : Total
  u : Total
  x : Total
  q : Total
  deriving DecidableEq, Repr

/-- Own totals of a set just made (R30). -/
def OwnTotals.zero : OwnTotals := ⟨.zero, .zero, .zero, .zero⟩

/-- The five lifetime own-card totals (R29). -/
structure LifeTotals where
  loads : Total
  captures : Total
  refunds : Total
  lapses : Total
  cashouts : Total
  deriving DecidableEq, Repr

/-- The Card Table (R16, R17, R21, R28 to R30, R34). `cards` is in map order; `serialNext = none` is
EXHAUSTED; `cursor = none` is the absent sweep cursor. -/
structure CardTable where
  cards : List Card
  serialNext : Option Nat
  float : Int
  life : LifeTotals
  openOwn : OwnTotals
  sealOwn : Option OwnTotals
  cursor : Option Nat
  deriving DecidableEq, Repr

/-- A hold record (R38). -/
structure Hold where
  id : Nat
  serial : Nat
  asker : Nat
  askTag : Option Nat
  asked : Nat
  least : Nat
  amount : Nat
  state : HoldState
  deadline : Option Moment
  captureTag : Option Nat
  captured : Option Nat
  trailNo : Option Nat
  booking : Option Nat
  deriving DecidableEq, Repr

/-- The peer held sum of one peer (R39, R49). -/
structure HeldSum where
  peer : Nat
  sum : Nat
  deriving DecidableEq, Repr

/-- The Hold Table (R39). The record count is the length of `holds`; `endList` names the ended records by id,
oldest end first. -/
structure HoldTable where
  holds : List Hold
  openCount : Nat
  peerOpenCount : Nat
  endList : List Nat
  peerHeld : List HeldSum
  nextId : Nat
  deriving DecidableEq, Repr

/-- The last credit fields of a trail entry (R62). -/
structure LastCredit where
  tag : Nat
  amount : Nat
  cycle : Nat
  deriving DecidableEq, Repr

/-- A trail entry (R62). -/
structure TrailEntry where
  number : Nat
  serial : Nat
  redeemer : Nat
  captureTag : Option Nat
  captured : Nat
  refunded : Nat
  booking : Nat
  lastCredit : Option LastCredit
  deriving DecidableEq, Repr

/-- The Capture Trail (R63): the head of `entries` is the oldest. -/
structure Trail where
  entries : List TrailEntry
  nextNumber : Nat
  deriving DecidableEq, Repr

/-! ### Frames, exchanges and results -/

/-- The body of a frame that fits its kind (R98), its fields read as numbers. -/
inductive Body where
  | beacon
  | ask (home serial asked least : Nat)
  | grant (holdId granted residual available balance : Nat) (expiry : Option Nat)
  | take (holdId serial amount : Nat)
  | taken (trail captured released booking balance : Nat)
  | free (holdId serial : Nat)
  | freed (released balance available : Nat)
  | credit (serial trail amount : Nat)
  | credited (trail amount remaining booking balance : Nat)
  | refuse (refusedKind : Nat) (reason : Reason) (value : Nat)
  | tally (cycle : Nat) (lifeRs lifeLs : Total)
  | check
  deriving DecidableEq, Repr

/-- A frame waiting to be sent. Its sender cycle and sender state are filled in when an attempt starts (R96). -/
structure Frame where
  dest : Nat
  tag : Nat
  body : Body
  deriving DecidableEq, Repr

/-- A queued frame with its attempt number and its remaining backoff slots; `none` is not yet drawn (R80, R82). -/
structure QFrame where
  frame : Frame
  attempt : Nat
  slots : Option Nat
  deriving DecidableEq, Repr

/-- The kind of an exchange with its parameters (R100, R103). -/
inductive ExParams where
  | hold (asked least : Nat)
  | probe
  | capture (holdId amount : Nat)
  | void (holdId : Nat)
  | refund (trail amount : Nat)
  deriving DecidableEq, Repr

/-- The values of an exchange that ended OK (R116). -/
inductive OkValues where
  | hold (holdId granted residual available balance : Nat) (expiry : Option Nat)
  | probe (available balance : Nat) (expiry : Option Nat)
  | capture (holdId trail captured released booking balance : Nat)
  | void (holdId released balance available : Nat)
  | refund (trail amount remaining booking balance : Nat)
  deriving DecidableEq, Repr

/-- How an exchange is reported (R116). -/
inductive ExOutcome where
  | ok (v : OkValues)
  | refused (r : Reason) (value : Nat)
  | noAnswer
  | unsure (sends : Nat)
  deriving DecidableEq, Repr

/-- Outcomes of a link result (R95). -/
inductive LinkOutcome where
  | joined | clash | drained
  deriving DecidableEq, Repr

/-- A record of the result queue (R116, R182, R95). `resolved` marks outcome RESOLVED around `outcome`. -/
inductive ResultRec where
  | exchange (tag : Nat) (token : Token) (params : ExParams) (home serial : Nat) (resolved : Bool)
      (outcome : ExOutcome)
  | link (outcome : LinkOutcome) (station : StationState) (cycle : Nat)
  deriving DecidableEq, Repr

/-- A result that waits, with its place in the order in which results became pending (R182). -/
structure Waiting where
  result : ResultRec
  place : Nat
  deriving DecidableEq, Repr

/-- An exchange (R100). The card reference is its home station and serial; the check digit follows (R13). An
internal VOID has no till token. -/
structure Exchange where
  tag : Nat
  params : ExParams
  internal : Bool
  home : Nat
  serial : Nat
  token : Option Token
  state : ExState
  sends : Nat
  replyDeadline : Option Moment
  resendWanted : Bool
  result : Option Waiting
  deriving DecidableEq, Repr

/-- An entry of the ended list (R101). -/
structure EndedEntry where
  home : Nat
  tag : Nat
  kind : ExKind
  internal : Bool
  serial : Nat
  holdId : Option Nat
  trailNo : Option Nat
  ending : Ending
  deriving DecidableEq, Repr

/-- The Exchange Table (R101): `exchanges` in admission order, `ended` oldest first. -/
structure ExchangeTable where
  exchanges : List Exchange
  ended : List EndedEntry
  nextTag : Nat
  deriving DecidableEq, Repr

/-! ### Link Controller -/

/-- The transmitter (R79, R82): idle, or driving an answer or a request frame since `start`: the preamble, the start byte
and `bytes`, from the destination byte to the CRC (R76). -/
inductive Tx where
  | idle
  | driving (answer : Bool) (bytes : List Byte) (start : Moment)
  deriving DecidableEq, Repr

/-- The line as the LC sees it (R77): idle since the idle point, or busy with the last known transition. -/
structure Line where
  idle : Bool
  since : Moment
  deriving DecidableEq, Repr

/-- The tally-wanted and check-wanted marks of one peer (R84). -/
structure WantedMarks where
  peer : Nat
  tally : Bool
  check : Bool
  deriving DecidableEq, Repr

/-- The Link Controller (R77 to R95). -/
structure Link where
  station : StationState
  answerQ : List QFrame
  requestQ : List QFrame
  tx : Tx
  line : Line
  lastRequest : Option Moment
  beaconAt : Option Moment
  heldBeacon : Bool
  wanted : List WantedMarks
  listenEnd : Option Moment
  heldLink : Option Waiting
  badFrames : List Moment
  sendFailed : Option Moment
  answerDropped : Option Moment
  clash : Bool
  deriving DecidableEq, Repr

/-! ### Position Table -/

/-- The figures of one peer in one cycle set (R119, R123). -/
structure Figures where
  r : Total
  l : Total
  k : Count
  lateCount : Count
  lateAmount : Total
  deriving DecidableEq, Repr

/-- Figures of a set just made (R124). -/
def Figures.zero : Figures := ⟨.zero, .zero, .zero, .zero, .zero⟩

/-- A tally as received (R98, R119). -/
structure Tally where
  cycle : Nat
  r : Total
  l : Total
  deriving DecidableEq, Repr

/-- The entry of one station number (R119). `lastHeard` is the moment the last-heard timer runs out. -/
structure PeerEntry where
  peer : Nat
  presence : Presence
  lastHeard : Option Moment
  lastState : Option SenderState
  lastCycle : Option Nat
  standing : Standing
  openF : Figures
  sealF : Option Figures
  lifeR : Total
  lifeL : Total
  lifeRs : Total
  lifeLs : Total
  sLast : Nat
  pendingTally : Option Tally
  lastMismatch : Option (Total × Total)
  protocolCount : Nat
  exposure : Total
  tripped : Bool
  tallyOwed : Bool
  deriving DecidableEq, Repr

/-- The entry of station number `p` after a cold start (R136). -/
def PeerEntry.fresh (p : Nat) : PeerEntry :=
  { peer := p, presence := .unknown, lastHeard := none, lastState := none, lastCycle := none, standing := .good,
    openF := .zero, sealF := none, lifeR := .zero, lifeL := .zero, lifeRs := .zero, lifeLs := .zero, sLast := 0,
    pendingTally := none, lastMismatch := none, protocolCount := 0, exposure := .zero, tripped := false,
    tallyOwed := false }

/-! ### Cycle Controller and Statement Unit -/

/-- A commission rate in basis points and a per-capture fee in minor units (R137). -/
structure Rate where
  bp : Nat
  fee : Nat
  deriving DecidableEq, Repr

/-- A staged entry of the rate schedule (R155). -/
structure Staged where
  effective : Nat
  rate : Rate
  deriving DecidableEq, Repr

/-- The Cycle Controller's part of the sealing set (R137, R138). -/
structure SealingSet where
  cycle : Nat
  rate : Rate
  forced : Bool
  deriving DecidableEq, Repr

/-- The Cycle Controller (R137). `sealTimer` is the moment the seal window runs out. -/
structure Cycles where
  openCycle : Nat
  sealing : Option SealingSet
  phase : Phase
  sealTimer : Option Moment
  pendingTarget : Option Nat
  active : Option Rate
  schedule : List Staged
  deriving DecidableEq, Repr

/-- A peer line of a statement (R158). -/
structure PeerLine where
  peer : Nat
  figures : Figures
  deriving DecidableEq, Repr

/-- A statement (R157). -/
structure Statement where
  kind : StatementKind
  number : Nat
  cycle : Nat
  forced : Bool
  saturated : Bool
  rate : Rate
  own : OwnTotals
  g : Total
  k : Count
  c : Total
  lam : Total
  n : Total
  direction : Direction
  amountDue : Nat
  lines : List PeerLine
  deriving DecidableEq, Repr

/-- A statement in its slot (R159). -/
structure Slot where
  no : SlotNo
  statement : Statement
  deriving DecidableEq, Repr

/-- The Statement Unit (R159): the slots that are not EMPTY, in creation order, oldest first. -/
structure StatementUnit where
  slots : List Slot
  nextNumber : Nat
  readPos : Nat
  reportLost : Bool
  deriving DecidableEq, Repr

/-! ### Monitor Unit, Terminal Port, pins -/

/-- The Monitor Unit (R171, R172, R175, R6): bit i−1 is source i. -/
structure Monitor where
  detect : BitVec 13
  latch : BitVec 13
  latched : BitVec 13
  stopOnError : Bool
  saturation : Bool
  deriving DecidableEq, Repr

/-- The applied settings of ENROL (R185). -/
structure Settings where
  station : Nat
  cardArea : Nat
  holdArea : Nat
  trailArea : Nat
  cardCeiling : Nat
  floatLimit : Nat
  exposureLimit : Nat
  exposureBand : Nat
  holdLifetime : Nat
  sealWindow : Nat
  requestSpacing : Nat
  retention : Nat
  initialRate : Nat
  initialFee : Nat
  detectEnables : BitVec 13
  latchEnables : BitVec 13
  stopOnError : Bool
  deriving DecidableEq, Repr

/-- A value of a response block, by its type of R97 and R180. -/
inductive Value where
  | amount (n : Nat)
  | marked (t : Total)
  | count (c : Count)
  | num1 (n : Nat)
  | num2 (n : Nat)
  | cycle (c : Option Nat)
  | flag (b : Bool)
  | reference (home serial : Nat)
  | noReference
  | digits8 (n : Nat)
  | token (t : Token)
  deriving DecidableEq, Repr

/-- A response block in the command buffer (R180). -/
structure Response where
  status : Status
  token : Token
  busy : Nat
  values : List Value
  deriving DecidableEq, Repr

/-- The Terminal Port (R179, R182, R184): `settings = none` is the clear enrolled flag. -/
structure Port where
  state : PortState
  response : Option Response
  busy : Nat
  results : List ResultRec
  settings : Option Settings
  deriving DecidableEq, Repr

/-- The output pins (R190): ATTN asserted, LDE high, the level on LTX while the line is driven (R76), and the bytes of
the last transfer on MISO. -/
structure Pins where
  attn : Bool
  lde : Bool
  ltx : Option Bool
  miso : List Byte
  deriving DecidableEq, Repr

/-- One SV640. `now`, `draws`, `seq` and `pending` are the model's own (log 1, 2, 6, 10). -/
structure State where
  now : Moment
  draws : Nat
  seq : Nat
  pending : List Instr
  power : Bool
  retention : Bool
  pins : Pins
  tp : Port
  ct : CardTable
  ht : HoldTable
  tr : Trail
  xt : ExchangeTable
  lc : Link
  pt : List PeerEntry
  cc : Cycles
  su : StatementUnit
  mu : Monitor
  deriving DecidableEq, Repr

/-- The station numbers 1 to 63, the index of the Position Table (R119). -/
def stationNumbers : List Nat := (List.range Config.stationMax).map (· + 1)

/-- The Card Table after a cold start (R37). -/
def CardTable.reset : CardTable :=
  { cards := [], serialNext := some 1, float := 0, life := ⟨.zero, .zero, .zero, .zero, .zero⟩,
    openOwn := .zero, sealOwn := none, cursor := none }

/-- The Hold Table after a cold start (R61). -/
def HoldTable.reset : HoldTable :=
  { holds := [], openCount := 0, peerOpenCount := 0, endList := [],
    peerHeld := stationNumbers.map fun p => ⟨p, 0⟩, nextId := 1 }

/-- The Capture Trail after a cold start (R75). -/
def Trail.reset : Trail := { entries := [], nextNumber := 1 }

/-- The Exchange Table after a cold start (R118). -/
def ExchangeTable.reset : ExchangeTable := { exchanges := [], ended := [], nextTag := 1 }

/-- Every tally-wanted and check-wanted mark clear (R99). -/
def wantedClear : List WantedMarks := stationNumbers.map fun p => ⟨p, false, false⟩

/-- The Link Controller after any start made at moment `t` (R99). The spec does not give the line state;
DESIGN CHOICE: busy, with no transition since the start (log 8). -/
def Link.reset (t : Moment) : Link :=
  { station := .offline, answerQ := [], requestQ := [], tx := .idle, line := ⟨false, t⟩, lastRequest := none,
    beaconAt := none, heldBeacon := false, wanted := wantedClear, listenEnd := none, heldLink := none,
    badFrames := [], sendFailed := none, answerDropped := none, clash := false }

/-- The Cycle Controller after a cold start (R156). -/
def Cycles.reset : Cycles :=
  { openCycle := 1, sealing := none, phase := .steady, sealTimer := none, pendingTarget := none, active := none,
    schedule := [] }

/-- The Statement Unit after a cold start (R170). -/
def StatementUnit.reset : StatementUnit := { slots := [], nextNumber := 1, readPos := 0, reportLost := false }

/-- The Monitor Unit after a cold start (R177). -/
def Monitor.reset : Monitor := { detect := 0, latch := 0, latched := 0, stopOnError := false, saturation := false }

/-- The Terminal Port after a cold start (R182, R184, R187). -/
def Port.reset : Port := { state := .idle, response := none, busy := 0, results := [], settings := none }

/-- What may stop the machine: nothing. The spec gives every command an effect, so no step answers a fault and
this type has no constructor. -/
inductive Fault where
  deriving DecidableEq, Repr

/-- What the model may refuse. -/
inductive Refusal where
  /-- Raised by an arm of `exec` whose command has no meaning yet. Safe: nothing is claimed of such a command. -/
  | notModelled (mnemonic : String)
  deriving DecidableEq, Repr

/-- The part right after a cold start (R187): not enrolled, OFFLINE, ATTN released, port IDLE, main power
present and the retention mark valid. -/
def State.reset : State :=
  { now := 0, draws := 0, seq := 0, pending := [], power := true, retention := true,
    pins := { attn := false, lde := false, ltx := none, miso := [] },
    tp := .reset, ct := .reset, ht := .reset, tr := .reset, xt := .reset, lc := .reset 0,
    pt := stationNumbers.map PeerEntry.fresh, cc := .reset, su := .reset, mu := .reset }

end Sys2Proof.Machine
end

