-- ==== Sys2Proof/Machine/Decimal.lean ====
section
/-! DEFINITION. The Decimal Unit (chapter 1): signed arithmetic with saturation, counts, rate, fee, the grant and
the settlement operations, and the check digit. Each operation works exactly on whole numbers of minor units and
limits its result at the end. -/

namespace Sys2Proof.Machine

/-- The limit of a signed total (R1, R4). -/
def totalMax : Int := Config.amountMax

/-- The exact result `x` does not fit in an amount (R4). -/
def overflows (x : Int) : Bool := x > totalMax || x < -totalMax

/-- The value returned for the exact result `x`: itself, or the limit of its sign (R4). -/
def saturate (x : Int) : Int := if x > totalMax then totalMax else if x < -totalMax then -totalMax else x

/-- Accumulate: the total is changed by `x`; a marked total keeps value and mark (R4, note 1). -/
def Total.acc (t : Total) (x : Int) : Total :=
  if t.mark then t else ⟨saturate (t.val + x), overflows (t.val + x)⟩

/-- Accumulating `x` into `t` reports saturation (R4). -/
def Total.accSat (t : Total) (x : Int) : Bool := !t.mark && overflows (t.val + x)

/-- Compute: the difference of two totals as a new figure, marked when an operand is marked or the
operation saturates (R4). -/
def Total.diff (a b : Total) : Total := ⟨saturate (a.val - b.val), a.mark || b.mark || overflows (a.val - b.val)⟩

/-- Computing the difference reports saturation (R4). -/
def Total.diffSat (a b : Total) : Bool := overflows (a.val - b.val)

/-- A chain of ADD operations in progress: the value reached, its mark, and whether a step has saturated, after
which the chain stays where it is (R4, note 3). -/
structure Chain where
  val : Int
  mark : Bool
  stuck : Bool
  deriving DecidableEq, Repr

/-- One ADD of a chain (R4, note 3). -/
def Chain.add (c : Chain) (t : Total) : Chain :=
  if c.stuck then ⟨c.val, true, true⟩
  else ⟨saturate (c.val + t.val), c.mark || t.mark || overflows (c.val + t.val), overflows (c.val + t.val)⟩

/-- The chain of ADD over `ts`, in their order (R4, note 3). -/
def chainSum (ts : List Total) : Chain := ts.foldl Chain.add ⟨0, false, false⟩

/-- The figure a chain gives. -/
def Chain.total (c : Chain) : Total := ⟨c.val, c.mark⟩

/-- COUNT: the increment of a count (R5). -/
def Count.inc (c : Count) : Count :=
  if c.mark then c else if c.n < Config.countMax then ⟨c.n + 1, false⟩ else ⟨Config.countMax, true⟩

/-- COUNT reports saturation (R5). -/
def Count.incSat (c : Count) : Bool := !c.mark && decide (Config.countMax ≤ c.n)

/-- A sum of counts, held at 999,999 and marked where it would pass it, and marked when a count is (R160). -/
def Count.plus (a b : Count) : Count :=
  if Config.countMax < a.n + b.n then ⟨Config.countMax, true⟩ else ⟨a.n + b.n, a.mark || b.mark⟩

/-- Adding `b` to `a` passes 999,999 (R160). -/
def Count.plusSat (a b : Count) : Bool := decide (Config.countMax < a.n + b.n)

/-- COMPARE of two amounts, by value (R7). -/
inductive Order where
  | less | equal | greater
  deriving DecidableEq, Repr

/-- COMPARE (R7): zero equals zero whatever its sign, and a marked total compares by its value. -/
def compareAmounts (a b : Int) : Order := if a < b then .less else if a = b then .equal else .greater

/-- RATE: base × rate ÷ 10,000, half upward (R9). -/
def rateOf (base bp : Nat) : Nat :=
  if 5000 ≤ base * bp % 10000 then base * bp / 10000 + 1 else base * bp / 10000

/-- FEE: count × fee, exact (R10). -/
def feeOf (k fee : Nat) : Nat := k * fee

/-- The base of the commission: G when greater than zero, else zero (R12 step 1). -/
def baseOf (g : Total) : Nat := g.val.toNat

/-- The commission C (R12 steps 2 to 4): RATE plus FEE, at most the base; a marked G, K or Λ leaves it marked. -/
def commission (g lam : Total) (k : Count) (r : Rate) : Total :=
  ⟨(min (rateOf (baseOf g) r.bp + feeOf k.n r.fee) (baseOf g) : Nat), g.mark || k.mark || lam.mark⟩

/-- The net N (R12 step 5): Λ taken from the difference of G and C. -/
def netOf (g c lam : Total) : Total := (g.diff c).diff lam

/-- A step of R12 saturates: only the last subtraction can. -/
def netSat (g c lam : Total) : Bool := g.diffSat c || (g.diff c).diffSat lam

/-- The outcome of GRANT (R11). -/
inductive Grant where
  | probe (available : Nat)
  | granted (g residual available : Nat)
  | funds (asked available : Nat)
  deriving DecidableEq, Repr

/-- The least amount as read: 0.00 with an asked amount above zero is read as the asked amount (R11). -/
def leastAsRead (asked least : Nat) : Nat := if least = 0 then asked else least

/-- A pair of asked and least that forms a request (R11). -/
def formsRequest (asked least : Nat) : Bool := decide (least ≤ asked)

/-- GRANT (R11): asked `a`, least as read `l`, available `v`. -/
def grantOf (a l v : Nat) : Grant :=
  if a = 0 then .probe v
  else if a ≤ v then .granted a 0 v
  else if l ≤ v then .granted v (a - v) v
  else .funds a v

/-- The weights of the check digit, from the left (R13). -/
def checkWeights : List Nat := [7, 3, 1, 7, 3, 1, 7, 3, 1, 7]

/-- The `k` decimal digits of `n`, most significant first. -/
def decimalDigits : Nat → Nat → List Nat
  | 0, _ => []
  | k + 1, n => decimalDigits k (n / 10) ++ [n % 10]

/-- CHECK DIGIT of a home station and a serial (R13). -/
def checkDigit (home serial : Nat) : Nat :=
  (List.zipWith (· * ·) (decimalDigits 2 home ++ decimalDigits 8 serial) checkWeights).sum % 10

end Sys2Proof.Machine
end

