-- ==== Sys2Proof/Machine/Operands.lean ====
section
/-! DEFINITION. The operand forms: how the raw fields of frames (R97, R98), command blocks (R180) and ENROL (R185)
are read as numbers, and which of them do not fit. -/

namespace Sys2Proof.Machine

/-- The number written by the `k` BCD digits of `x`; none when a nibble is above 9 (R97). -/
def bcdNat? : Nat → Nat → Option Nat
  | 0, _ => some 0
  | k + 1, x => if x % 16 ≤ 9 then (bcdNat? k (x / 16)).map fun v => v * 10 + x % 16 else none

/-- The `k` BCD digits of `n` as a number of 4k bits (R97). -/
def toBcd : Nat → Nat → Nat
  | 0, _ => 0
  | k + 1, n => toBcd k (n / 10) * 16 + n % 10

/-- An amount field of R97: sign byte 00 plus or 01 minus, then twelve BCD digits. A minus sign with twelve zero
digits is zero (R1). None when the field is not of the type. -/
def readSigned (f : AmountField) : Option Int :=
  match bcdNat? 12 (f.toNat % 2 ^ 48), f.toNat / 2 ^ 48 with
  | some d, 0 => some d
  | some d, 1 => some (-(d : Int))
  | _, _ => none

/-- An amount field that must be unsigned: none for a minus sign with a digit other than 0 (R87 signs, R97). -/
def readUnsigned (f : AmountField) : Option Nat :=
  match readSigned f with
  | some (.ofNat n) => some n
  | _ => none

/-- A card-level amount of a till command: none when refused AMOUNT (R15, R180 test 3). -/
def readCardAmount (f : AmountField) : Option Nat :=
  match readUnsigned f with
  | some n => if n ≤ Config.cardAmountMax then some n else none
  | none => none

/-- A card reference that passes R14: its home station number and serial. -/
structure CardRef where
  home : Nat
  serial : Nat
  deriving DecidableEq, Repr

/-- The tests of R14 on the eleven digits of a card reference. -/
def readRef (f : RefField) : Option CardRef :=
  match bcdNat? 11 (f.toNat / 16) with
  | none => none
  | some d =>
    let home := d / 10 ^ 9
    let serial := d / 10 % 10 ^ 8
    if 1 ≤ home ∧ home ≤ Config.stationMax ∧ 1 ≤ serial ∧ d % 10 = checkDigit home serial then some ⟨home, serial⟩
    else none

/-- A card reference of a frame body: the tests of R14, and the filler nibble F (R87 digits, R97). -/
def readFrameRef (f : RefField) : Option CardRef := if f.toNat % 16 = 15 then readRef f else none

/-- A serial or trail number field of a frame: eight BCD digits, not 0 (R87 numbers, R98 note 1). -/
def readDigits8 (f : Digits8Field) : Option Nat :=
  match bcdNat? 8 f.toNat with
  | some (n + 1) => some (n + 1)
  | _ => none

/-- A cycle field: six BCD digits (R97). -/
def readCycle (f : CycleField) : Option Nat := bcdNat? 6 f.toNat

/-- A cycle field that must be 000001 or above (R98 note 2). -/
def readCycle1 (f : CycleField) : Option Nat :=
  match readCycle f with
  | some (n + 1) => some (n + 1)
  | _ => none

/-- An expiry cycle: 000000 is none (R98 note 2); the outer option fails on a digit above 9. -/
def readExpiry (f : CycleField) : Option (Option Nat) :=
  match readCycle f with
  | some 0 => some none
  | some (n + 1) => some (some (n + 1))
  | none => none

/-- A hold id of a TAKE or FREE: not 0 (R98 note 1). -/
def readHoldId (f : Num2Field) : Option Nat := if f.toNat = 0 then none else some f.toNat

/-- The code of a reason (R98). -/
def Reason.code : Reason → Nat
  | .unknownCard => 1 | .cardFrozen => 2 | .cardClosed => 3 | .cardLapsed => 4 | .funds => 5
  | .cardHoldsFull => 6 | .holdTableFull => 7 | .exposure => 8 | .peerBarred => 9 | .stationStopped => 10
  | .draining => 11 | .tagConflict => 12 | .unknownHold => 13 | .holdEnded => 15 | .amount => 16
  | .trailFull => 17 | .unknownCapture => 18 | .notRedeemer => 19 | .overRefund => 20 | .ceiling => 21
  | .malformed => 22

/-- Every reason of R98. -/
def Reason.all : List Reason :=
  [.unknownCard, .cardFrozen, .cardClosed, .cardLapsed, .funds, .cardHoldsFull, .holdTableFull, .exposure,
   .peerBarred, .stationStopped, .draining, .tagConflict, .unknownHold, .holdEnded, .amount, .trailFull,
   .unknownCapture, .notRedeemer, .overRefund, .ceiling, .malformed]

/-- The reason with a code: none for 0, 14 and codes above 22 (R98). -/
def reasonOfCode (n : Nat) : Option Reason := Reason.all.find? fun r => r.code = n

/-- The kind codes of R96. -/
def kindBeacon : Nat := 0x01
def kindAsk : Nat := 0x10
def kindGrant : Nat := 0x11
def kindTake : Nat := 0x12
def kindTaken : Nat := 0x13
def kindFree : Nat := 0x14
def kindFreed : Nat := 0x15
def kindCredit : Nat := 0x16
def kindCredited : Nat := 0x17
def kindRefuse : Nat := 0x1F
def kindTally : Nat := 0x20
def kindCheck : Nat := 0x21

/-- The refused kinds a REFUSE may carry (R98 note 5). -/
def refusableKinds : List Nat := [kindAsk, kindTake, kindFree, kindCredit]

/-- A body whose kind is known and whose length fits it (R98), its fields still raw. -/
inductive RawBody where
  | beacon
  | ask (ref : RefField) (asked least : AmountField)
  | grant (holdId : Num2Field) (granted residual available balance : AmountField) (expiry : CycleField)
  | take (holdId : Num2Field) (serial : Digits8Field) (amount : AmountField)
  | taken (trail : Digits8Field) (captured released : AmountField) (booking : CycleField) (balance : AmountField)
  | free (holdId : Num2Field) (serial : Digits8Field)
  | freed (released balance available : AmountField)
  | credit (serial trail : Digits8Field) (amount : AmountField)
  | credited (trail : Digits8Field) (amount remaining : AmountField) (booking : CycleField) (balance : AmountField)
  | refuse (refusedKind reason : Byte) (value : AmountField)
  | tally (cycle : CycleField) (lifeRs lifeLs : AmountField) (marks : Byte)
  | check
  deriving DecidableEq, Repr

/-- The kind code of a raw body (R96). -/
def RawBody.kind : RawBody → Nat
  | .beacon => kindBeacon | .ask .. => kindAsk | .grant .. => kindGrant | .take .. => kindTake
  | .taken .. => kindTaken | .free .. => kindFree | .freed .. => kindFreed | .credit .. => kindCredit
  | .credited .. => kindCredited | .refuse .. => kindRefuse | .tally .. => kindTally | .check => kindCheck

/-- The tests of R87 on the fields of a body (digits, signs, card reference, numbers, pairs, codes), and the
fields read: none is a malformed body. -/
def RawBody.read : RawBody → Option Body
  | .beacon => some .beacon
  | .ask ref asked least => do
    let c ← readFrameRef ref
    let a ← readUnsigned asked
    let l ← readUnsigned least
    if formsRequest a l then some (.ask c.home c.serial a (leastAsRead a l)) else none
  | .grant holdId granted residual available balance expiry => do
    let g ← readUnsigned granted
    let r ← readUnsigned residual
    let v ← readUnsigned available
    let b ← readUnsigned balance
    let e ← readExpiry expiry
    some (.grant holdId.toNat g r v b e)
  | .take holdId serial amount => do
    let i ← readHoldId holdId
    let n ← readDigits8 serial
    let a ← readUnsigned amount
    some (.take i n a)
  | .taken trail captured released booking balance => do
    let n ← readDigits8 trail
    let c ← readUnsigned captured
    let r ← readUnsigned released
    let k ← readCycle1 booking
    let b ← readUnsigned balance
    some (.taken n c r k b)
  | .free holdId serial => do
    let i ← readHoldId holdId
    let n ← readDigits8 serial
    some (.free i n)
  | .freed released balance available => do
    let r ← readUnsigned released
    let b ← readUnsigned balance
    let v ← readUnsigned available
    some (.freed r b v)
  | .credit serial trail amount => do
    let s ← readDigits8 serial
    let n ← readDigits8 trail
    let a ← readUnsigned amount
    some (.credit s n a)
  | .credited trail amount remaining booking balance => do
    let n ← readDigits8 trail
    let a ← readUnsigned amount
    let m ← readUnsigned remaining
    let k ← readCycle1 booking
    let b ← readUnsigned balance
    some (.credited n a m k b)
  | .refuse refusedKind reason value => do
    let r ← reasonOfCode reason.toNat
    let v ← readUnsigned value
    if refusedKind.toNat ∈ refusableKinds then some (.refuse refusedKind.toNat r v) else none
  | .tally cycle lifeRs lifeLs marks => do
    let k ← readCycle1 cycle
    let r ← readSigned lifeRs
    let l ← readSigned lifeLs
    if marks.toNat ≤ 3 then some (.tally k ⟨r, marks.getLsbD 0⟩ ⟨l, marks.getLsbD 1⟩) else none
  | .check => some .check

/-- The destination test of R87: a BEACON goes to 0, every other kind to a station number. -/
def destinationFits (kind dest : Nat) : Bool := if kind = kindBeacon then dest == 0 else dest != 0

/-- The tag test of R87: BEACON, TALLY and CHECK carry tag 0, every other kind a tag. -/
def tagFits (kind tag : Nat) : Bool :=
  if kind = kindBeacon ∨ kind = kindTally ∨ kind = kindCheck then tag == 0 else tag != 0

/-- The number written by bytes, high byte first (R97). -/
def beNat (bs : List Byte) : Nat := bs.foldl (fun a b => a * 256 + b.toNat) 0

/-- The field of `len` bytes at offset `off` of a body or block. -/
def fieldAt (bs : List Byte) (off len : Nat) : Nat := beNat ((bs.drop off).take len)

/-- The body of a frame by its kind code: none when the code is none of the twelve or the length differs from the
length of the kind (R87 kind and length, R98). -/
def parseBody (kind : Nat) (bs : List Byte) : Option RawBody :=
  let f := fieldAt bs
  if kind = kindBeacon ∧ bs.length = 0 then some .beacon
  else if kind = kindAsk ∧ bs.length = 20 then
    some (.ask (.ofNat _ (f 0 6)) (.ofNat _ (f 6 7)) (.ofNat _ (f 13 7)))
  else if kind = kindGrant ∧ bs.length = 33 then
    some (.grant (.ofNat _ (f 0 2)) (.ofNat _ (f 2 7)) (.ofNat _ (f 9 7)) (.ofNat _ (f 16 7)) (.ofNat _ (f 23 7))
      (.ofNat _ (f 30 3)))
  else if kind = kindTake ∧ bs.length = 13 then
    some (.take (.ofNat _ (f 0 2)) (.ofNat _ (f 2 4)) (.ofNat _ (f 6 7)))
  else if kind = kindTaken ∧ bs.length = 28 then
    some (.taken (.ofNat _ (f 0 4)) (.ofNat _ (f 4 7)) (.ofNat _ (f 11 7)) (.ofNat _ (f 18 3)) (.ofNat _ (f 21 7)))
  else if kind = kindFree ∧ bs.length = 6 then some (.free (.ofNat _ (f 0 2)) (.ofNat _ (f 2 4)))
  else if kind = kindFreed ∧ bs.length = 21 then
    some (.freed (.ofNat _ (f 0 7)) (.ofNat _ (f 7 7)) (.ofNat _ (f 14 7)))
  else if kind = kindCredit ∧ bs.length = 15 then
    some (.credit (.ofNat _ (f 0 4)) (.ofNat _ (f 4 4)) (.ofNat _ (f 8 7)))
  else if kind = kindCredited ∧ bs.length = 28 then
    some (.credited (.ofNat _ (f 0 4)) (.ofNat _ (f 4 7)) (.ofNat _ (f 11 7)) (.ofNat _ (f 18 3)) (.ofNat _ (f 21 7)))
  else if kind = kindRefuse ∧ bs.length = 9 then
    some (.refuse (.ofNat _ (f 0 1)) (.ofNat _ (f 1 1)) (.ofNat _ (f 2 7)))
  else if kind = kindTally ∧ bs.length = 18 then
    some (.tally (.ofNat _ (f 0 3)) (.ofNat _ (f 3 7)) (.ofNat _ (f 10 7)) (.ofNat _ (f 17 1)))
  else if kind = kindCheck ∧ bs.length = 0 then some .check
  else none

/-- The sender state of a header: 1 ACTIVE, 2 DRAINING (R96). -/
def readSenderState (b : Byte) : Option SenderState :=
  if b.toNat = 1 then some .active else if b.toNat = 2 then some .draining else none

/-- A readable header (R86), its fields read. -/
structure Header where
  dest : Nat
  source : Nat
  cycle : Nat
  senderState : SenderState
  tag : Nat
  deriving DecidableEq, Repr

/-- Reading a header: none when it is unreadable, by source, sender cycle or sender state (R86). -/
def readHeader (h : RxHeader) : Option Header := do
  let c ← readCycle1 h.cycle
  let st ← readSenderState h.senderState
  if 1 ≤ h.source.toNat ∧ h.source.toNat ≤ Config.stationMax then
    some ⟨h.dest.toNat, h.source.toNat, c, st, h.tag.toNat⟩
  else none

/-- One byte into the CRC register, most significant bit first: generator x^16 + x^15 + x^2 + 1 (R78). -/
def crcByte (r : BitVec 16) (b : Byte) : BitVec 16 :=
  (List.range 8).foldl
    (fun r _ => if r.getMsbD 0 then (r <<< 1) ^^^ 0x8005#16 else r <<< 1)
    (r ^^^ (b.setWidth 16 <<< 8))

/-- The CRC of R78: preset to all ones, no inversion. -/
def crc16 (bs : List Byte) : BitVec 16 := bs.foldl crcByte 0xFFFF#16

/-- The preamble: 16 bits, alternating 1 and 0, beginning with 1 (R76). -/
def preamble : List Bool := (List.replicate 8 [true, false]).flatten

/-- The start byte 10110011 (R76). -/
def startByte : Byte := 0xB3#8

/-- The bits of a byte as the line carries them, most significant first (R76). -/
def byteBits (b : Byte) : List Bool := (List.range 8).map b.getMsbD

/-- What a receiver must see before a frame: 8 bit times of the preamble, then the start byte (R76). -/
def startMark : List Bool := preamble.take 8 ++ byteBits startByte

/-- The bits that follow the first recognised beginning of a frame; none when no beginning is recognised (R76). -/
def recognise : List Bool → Option (List Bool)
  | [] => none
  | b :: bs => if (b :: bs).take 16 = startMark then some (bs.drop 15) else recognise bs

/-- The whole bytes that bits spell, each most significant bit first (R76). -/
def packBytes : List Bool → List Byte
  | b7 :: b6 :: b5 :: b4 :: b3 :: b2 :: b1 :: b0 :: rest =>
    BitVec.ofBoolListBE [b7, b6, b5, b4, b3, b2, b1, b0] :: packBytes rest
  | _ => []

/-- What has been heard of a frame when its reading ends (R85). -/
inductive Heard where
  | fragment
  | oversize
  | bad
  | good (f : RxFrame)
  deriving DecidableEq, Repr

/-- The class of a frame by the bytes heard from its destination byte on (R85): a fragment ends before the body
length byte or before the end the length places; a body length above 40 is oversize; then the CRC decides. -/
def classify (heard : List Byte) : Heard :=
  if heard.length < 10 then .fragment
  else
    let n := fieldAt heard 9 1
    if 40 < n then .oversize
    else if heard.length < 12 + n then .fragment
    else if fieldAt heard (10 + n) 2 = (crc16 (heard.take (10 + n))).toNat then
      .good
        { header :=
            { dest := .ofNat _ (fieldAt heard 0 1), source := .ofNat _ (fieldAt heard 1 1),
              cycle := .ofNat _ (fieldAt heard 3 3), senderState := .ofNat _ (fieldAt heard 6 1),
              tag := .ofNat _ (fieldAt heard 7 2) },
          kind := .ofNat _ (fieldAt heard 2 1), body := (heard.drop 10).take n }
    else .bad

/-- The class of a frame by the bits read from the line (R76, R85): without a recognised beginning there is no frame, and
what was heard is a fragment. -/
def classifyBits (bits : List Bool) : Heard :=
  match recognise bits with
  | some rest => classify (packBytes rest)
  | none => .fragment

/-- The till commands with their raw parameters (R180). -/
inductive Command where
  | enrol (f : EnrolFields)
  | join | drain | leave
  | issue (amount : AmountField) (validity : CycleField)
  | load (ref : RefField) (amount : AmountField)
  | cashout (ref : RefField)
  | freeze (ref : RefField)
  | thaw (ref : RefField)
  | enquire (ref : RefField)
  | authorize (ref : RefField) (asked least : AmountField)
  | capture (ref : RefField) (holdId : Num2Field) (amount : AmountField)
  | void (ref : RefField) (holdId : Num2Field)
  | refund (ref : RefField) (trail : Digits8Field) (amount : AmountField)
  | closeDay | report
  | setRate (rate : BitVec 16) (fee : BitVec 8) (effective : CycleField)
  | readStatement | readResult
  | peerStatus (peer : BitVec 8)
  | clearPeer (peer : BitVec 8)
  | adjust (peer : BitVec 8) (dR dL : AmountField)
  | status
  | clearMonitor (selection : BitVec 16)
  | restart | wipe
  deriving DecidableEq, Repr

/-- The command of a code and its parameters; none when the code is not of the table or the parameter length is
not that command's (R180). -/
def parseCommand (code : Nat) (ps : List Byte) : Option Command :=
  let f := fieldAt ps
  match code, ps.length with
  | 0x01, 49 => some (.enrol
      { station := .ofNat _ (f 0 1), cardArea := .ofNat _ (f 1 2), holdArea := .ofNat _ (f 3 2),
        trailArea := .ofNat _ (f 5 2), cardCeiling := .ofNat _ (f 7 7), floatLimit := .ofNat _ (f 14 7),
        exposureLimit := .ofNat _ (f 21 7), exposureBand := .ofNat _ (f 28 7), holdLifetime := .ofNat _ (f 35 2),
        sealWindow := .ofNat _ (f 37 2), requestSpacing := .ofNat _ (f 39 1), retention := .ofNat _ (f 40 1),
        initialRate := .ofNat _ (f 41 2), initialFee := .ofNat _ (f 43 1), detectEnables := .ofNat _ (f 44 2),
        latchEnables := .ofNat _ (f 46 2), stopOnError := .ofNat _ (f 48 1) })
  | 0x02, 0 => some .join
  | 0x03, 0 => some .drain
  | 0x04, 0 => some .leave
  | 0x05, 10 => some (.issue (.ofNat _ (f 0 7)) (.ofNat _ (f 7 3)))
  | 0x06, 13 => some (.load (.ofNat _ (f 0 6)) (.ofNat _ (f 6 7)))
  | 0x07, 6 => some (.cashout (.ofNat _ (f 0 6)))
  | 0x08, 6 => some (.freeze (.ofNat _ (f 0 6)))
  | 0x09, 6 => some (.thaw (.ofNat _ (f 0 6)))
  | 0x0A, 6 => some (.enquire (.ofNat _ (f 0 6)))
  | 0x0B, 20 => some (.authorize (.ofNat _ (f 0 6)) (.ofNat _ (f 6 7)) (.ofNat _ (f 13 7)))
  | 0x0C, 15 => some (.capture (.ofNat _ (f 0 6)) (.ofNat _ (f 6 2)) (.ofNat _ (f 8 7)))
  | 0x0D, 8 => some (.void (.ofNat _ (f 0 6)) (.ofNat _ (f 6 2)))
  | 0x0E, 0 => some .closeDay
  | 0x0F, 0 => some .report
  | 0x10, 6 => some (.setRate (.ofNat _ (f 0 2)) (.ofNat _ (f 2 1)) (.ofNat _ (f 3 3)))
  | 0x11, 0 => some .readStatement
  | 0x12, 0 => some .readResult
  | 0x13, 1 => some (.peerStatus (.ofNat _ (f 0 1)))
  | 0x14, 1 => some (.clearPeer (.ofNat _ (f 0 1)))
  | 0x15, 15 => some (.adjust (.ofNat _ (f 0 1)) (.ofNat _ (f 1 7)) (.ofNat _ (f 8 7)))
  | 0x16, 0 => some .status
  | 0x17, 2 => some (.clearMonitor (.ofNat _ (f 0 2)))
  | 0x18, 0 => some .restart
  | 0x19, 0 => some .wipe
  | 0x1A, 17 => some (.refund (.ofNat _ (f 0 6)) (.ofNat _ (f 6 4)) (.ofNat _ (f 10 7)))
  | _, _ => none

/-- The token of a written block: as written, or 0 when fewer than five bytes arrived (R180). -/
def blockToken (block : List Byte) : Token := if block.length < 5 then 0 else .ofNat _ (fieldAt block 1 4)

/-- The command of a written block when its length, CRC, code and parameter length are whole (R180); the digits of
its trail number or cycle parameters are tested by the command itself. -/
def parseBlock (block : List Byte) : Option Command :=
  let n := fieldAt block 5 1
  if 8 ≤ block.length ∧ block.length = 8 + n ∧ fieldAt block (6 + n) 2 = (crc16 (block.take (6 + n))).toNat then
    parseCommand (fieldAt block 0 1) ((block.drop 6).take n)
  else none

/-- The settings of ENROL as read, or the index of the first setting outside its range (R185). Bits 13 to 15 of the
enables are ignored and not kept (log 45). -/
def readSettings (f : EnrolFields) : Except Nat Settings :=
  let clampTo (lo hi x : Nat) : Nat := max lo (min hi x)
  if ¬(1 ≤ f.station.toNat ∧ f.station.toNat ≤ Config.stationMax) then .error 1
  else if f.cardArea.toNat < 256 then .error 2
  else if ¬(32 ≤ f.holdArea.toNat ∧ f.holdArea.toNat ≤ 1024) then .error 3
  else if ¬(512 ≤ f.trailArea.toNat ∧
      f.cardArea.toNat + f.holdArea.toNat + f.trailArea.toNat ≤ Config.storeCells) then .error 4
  else match readUnsigned f.cardCeiling with
  | none => .error 5
  | some ceiling =>
  if ¬(100 ≤ ceiling ∧ ceiling ≤ Config.cardAmountMax) then .error 5
  else match readUnsigned f.floatLimit with
  | none => .error 6
  | some floatLimit =>
  if floatLimit < 100 then .error 6
  else match readUnsigned f.exposureLimit with
  | none => .error 7
  | some exposureLimit =>
  if exposureLimit < 100 then .error 7
  else match readUnsigned f.exposureBand with
  | none => .error 8
  | some band =>
  if exposureLimit < band then .error 8
  else if 1500 < f.initialRate.toNat then .error 13
  else if 99 < f.initialFee.toNat then .error 14
  else if 1 < f.stopOnError.toNat then .error 17
  else .ok
    { station := f.station.toNat, cardArea := f.cardArea.toNat, holdArea := f.holdArea.toNat,
      trailArea := f.trailArea.toNat, cardCeiling := ceiling, floatLimit := floatLimit,
      exposureLimit := exposureLimit, exposureBand := band,
      holdLifetime := clampTo 30 600 f.holdLifetime.toNat, sealWindow := clampTo 30 900 f.sealWindow.toNat,
      requestSpacing := clampTo 0 7 f.requestSpacing.toNat, retention := clampTo 1 60 f.retention.toNat,
      initialRate := f.initialRate.toNat, initialFee := f.initialFee.toNat,
      detectEnables := f.detectEnables.setWidth 13, latchEnables := f.latchEnables.setWidth 13,
      stopOnError := f.stopOnError.toNat == 1 }

end Sys2Proof.Machine
end

