-- ==== Sys2Proof/Machine/Codec.lean ====
section
/-! DEFINITION. What the part writes: frame headers and bodies (R96 to R98) with their CRC (R78), and response
blocks with their value types and codes (R180 to R183). -/

namespace Sys2Proof.Machine

/-- `k` bytes of `n`, high byte first (R97). -/
def beBytes : Nat → Nat → List Byte
  | 0, _ => []
  | k + 1, n => beBytes k (n / 256) ++ [BitVec.ofNat 8 n]

/-- `k` bytes holding 2k BCD digits of `n`. -/
def bcdBytes (k n : Nat) : List Byte := beBytes k (toBcd (2 * k) n)

/-- A sign byte and twelve BCD digits (R97, R180): the sign byte is `plus` or `plus + 1`. -/
def signedBytes (plus : Nat) (v : Int) : List Byte :=
  BitVec.ofNat 8 (if v < 0 then plus + 1 else plus) :: bcdBytes 6 v.natAbs

/-- The amount type of R97. -/
def amountBytes (v : Int) : List Byte := signedBytes 0 v

/-- The marked amount type of R180: sign bytes 00, 01 and, marked, 02, 03. -/
def markedBytes (t : Total) : List Byte := signedBytes (if t.mark then 2 else 0) t.val

/-- The count type of R180: a mark byte, then six BCD digits. -/
def countBytes (c : Count) : List Byte := BitVec.ofNat 8 (if c.mark then 1 else 0) :: bcdBytes 3 c.n

/-- The cycle type of R97: 000000 for none. -/
def cycleBytes (c : Option Nat) : List Byte := bcdBytes 3 (c.getD 0)

/-- The card reference type of R97 with the check digit of R13. -/
def refBytes (home serial : Nat) : List Byte :=
  beBytes 6 (toBcd 11 ((home * 10 ^ 8 + serial) * 10 + checkDigit home serial) * 16 + 15)

/-- The marks byte of a TALLY (R98 note 3, R150). -/
def tallyMarks (r l : Total) : Nat := (if r.mark then 1 else 0) + (if l.mark then 2 else 0)

/-- The kind code of a body (R96). -/
def Body.kind : Body → Nat
  | .beacon => kindBeacon | .ask .. => kindAsk | .grant .. => kindGrant | .take .. => kindTake
  | .taken .. => kindTaken | .free .. => kindFree | .freed .. => kindFreed | .credit .. => kindCredit
  | .credited .. => kindCredited | .refuse .. => kindRefuse | .tally .. => kindTally | .check => kindCheck

/-- The bytes of a body (R98). -/
def Body.bytes : Body → List Byte
  | .beacon => []
  | .ask home serial asked least => refBytes home serial ++ amountBytes asked ++ amountBytes least
  | .grant holdId granted residual available balance expiry =>
    beBytes 2 holdId ++ amountBytes granted ++ amountBytes residual ++ amountBytes available ++
      amountBytes balance ++ cycleBytes expiry
  | .take holdId serial amount => beBytes 2 holdId ++ bcdBytes 4 serial ++ amountBytes amount
  | .taken trail captured released booking balance =>
    bcdBytes 4 trail ++ amountBytes captured ++ amountBytes released ++ bcdBytes 3 booking ++ amountBytes balance
  | .free holdId serial => beBytes 2 holdId ++ bcdBytes 4 serial
  | .freed released balance available => amountBytes released ++ amountBytes balance ++ amountBytes available
  | .credit serial trail amount => bcdBytes 4 serial ++ bcdBytes 4 trail ++ amountBytes amount
  | .credited trail amount remaining booking balance =>
    bcdBytes 4 trail ++ amountBytes amount ++ amountBytes remaining ++ bcdBytes 3 booking ++ amountBytes balance
  | .refuse refusedKind reason value => beBytes 1 refusedKind ++ beBytes 1 reason.code ++ amountBytes value
  | .tally cycle lifeRs lifeLs =>
    bcdBytes 3 cycle ++ amountBytes lifeRs.val ++ amountBytes lifeLs.val ++ beBytes 1 (tallyMarks lifeRs lifeLs)
  | .check => []

/-- The code of a sender state (R96). -/
def SenderState.code : SenderState → Nat
  | .active => 1 | .draining => 2

/-- The sender state a station shows in its frames; only ACTIVE and DRAINING send (R90, R96). -/
def StationState.sender : StationState → SenderState
  | .draining => .draining
  | _ => .active

/-- The bytes of a frame from its destination byte to its CRC, with the sender's number, open cycle and state as
they stand when the attempt starts (R96 note 2, R78). -/
def frameBytes (own openCycle : Nat) (st : SenderState) (f : Frame) : List Byte :=
  let body := f.body.bytes
  let covered := beBytes 1 f.dest ++ beBytes 1 own ++ beBytes 1 f.body.kind ++ bcdBytes 3 openCycle ++
    beBytes 1 st.code ++ beBytes 2 f.tag ++ beBytes 1 body.length ++ body
  covered ++ beBytes 2 (crc16 covered).toNat

/-- The bits of a frame on the line: preamble, start byte, then its bytes (R76). -/
def lineBits (bytes : List Byte) : List Bool := preamble ++ (startByte :: bytes).flatMap byteBits

/-- The levels of a bit cell, half a bit time each: the transition at its middle goes from low to high for a 1, from high
to low for a 0 (R76). -/
def cellLevels (b : Bool) : List Bool := [!b, b]

/-- The level a transmitter drives at moment `now`; none while it does not drive (R76, R190). -/
def Tx.level (now : Moment) : Tx → Option Bool
  | .idle => none
  | .driving _ bytes start => ((lineBits bytes).flatMap cellLevels)[(now - start) / Config.halfBit]?

/-- The time a frame occupies on the line: 24 + 8 × bytes bit times, preamble and start byte included (R76). -/
def frameSpan (bytes : List Byte) : Moment := (24 + 8 * bytes.length) * Config.bitTime

/-- The last transition of a frame driven whole since `start`: at the middle of its last bit cell (R76). -/
def lastTransition (bytes : List Byte) (start : Moment) : Moment := start + frameSpan bytes - Config.halfBit

/-- The code of a status (R181). -/
def Status.code : Status → Nat
  | .ok => 0 | .reason r => r.code | .waiting => 32 | .badReference => 33 | .notHome => 34 | .homeAbsent => 35
  | .homeUnknown => 36 | .notActive => 37 | .exchangesFull => 38 | .floatLimit => 39 | .cardTableFull => 40
  | .serialsExhausted => 41 | .cardHoldsOpen => 42 | .slotsFull => 43 | .closePending => 44 | .cycleLimit => 45
  | .scheduleFull => 46 | .pastCycle => 47 | .busy => 48 | .notEnrolled => 49 | .alreadyEnrolled => 50
  | .badSetting => 51 | .notEmpty => 52 | .nothing => 53

/-- The bytes of a value of a response (R180). -/
def Value.bytes : Value → List Byte
  | .amount n => amountBytes n
  | .marked t => markedBytes t
  | .count c => countBytes c
  | .num1 n => beBytes 1 n
  | .num2 n => beBytes 2 n
  | .cycle c => cycleBytes c
  | .flag b => beBytes 1 (if b then 1 else 0)
  | .reference home serial => refBytes home serial
  | .noReference => beBytes 6 15
  | .digits8 n => bcdBytes 4 n
  | .token t => beBytes 4 t.toNat

/-- The bytes of a response block (R180). -/
def Response.bytes (r : Response) : List Byte :=
  let vals := (r.values.map Value.bytes).flatten
  let covered := beBytes 1 r.status.code ++ beBytes 4 r.token.toNat ++ beBytes 1 r.busy ++ beBytes 2 vals.length ++ vals
  covered ++ beBytes 2 (crc16 covered).toNat

/-- The code of a port state (R179). -/
def PortState.code : PortState → Nat
  | .idle => 0 | .working => 1 | .ready => 2 | .starting => 3

/-! ### The codes of the enumerated values (R180, R182, R183) -/

def CardState.code : CardState → Nat
  | .active => 1 | .frozen => 2 | .closed => 3 | .lapsed => 4
def Presence.code : Presence → Nat
  | .unknown => 0 | .present => 1 | .absent => 2
def Standing.code : Standing → Nat
  | .good => 0 | .watch => 1 | .barred => 2 | .recheck => 3
def StationState.code : StationState → Nat
  | .offline => 0 | .listening => 1 | .active => 2 | .draining => 3 | .withdrawn => 4
def Phase.code : Phase → Nat
  | .steady => 0 | .sweeping => 1 | .sealing => 2 | .deferred => 3
def StatementKind.code : StatementKind → Nat
  | .sealed => 1 | .report => 2
def StatementKind.slotCode : StatementKind → Nat
  | .report => 1 | .sealed => 2
def Direction.code : Direction → Nat
  | .mallPays => 1 | .stationPays => 2
def ExKind.code : ExKind → Nat
  | .hold => 1 | .probe => 2 | .capture => 3 | .void => 4 | .refund => 5
def LinkOutcome.code : LinkOutcome → Nat
  | .joined => 6 | .clash => 7 | .drained => 8
def ExOutcome.code : ExOutcome → Nat
  | .ok _ => 1 | .refused .. => 2 | .noAnswer => 3 | .unsure _ => 4

/-- The kind of an exchange (R103). -/
def ExParams.kind : ExParams → ExKind
  | .hold .. => .hold | .probe => .probe | .capture .. => .capture | .void _ => .void | .refund .. => .refund

/-- The command's own parameters, as R103 lists them (log 11). -/
def ExParams.values (home serial : Nat) : ExParams → List Value
  | .hold asked least => [.reference home serial, .amount asked, .amount least]
  | .probe => [.reference home serial]
  | .capture holdId amount => [.reference home serial, .num2 holdId, .amount amount]
  | .void holdId => [.reference home serial, .num2 holdId]
  | .refund trail amount => [.reference home serial, .digits8 trail, .amount amount]

/-- The values of an exchange that ended OK, in the order of R116. -/
def OkValues.values : OkValues → List Value
  | .hold holdId granted residual available balance expiry =>
    [.num2 holdId, .amount granted, .amount residual, .amount available, .amount balance, .cycle expiry]
  | .probe available balance expiry => [.amount available, .amount balance, .cycle expiry]
  | .capture holdId trail captured released booking balance =>
    [.num2 holdId, .digits8 trail, .amount captured, .amount released, .cycle (some booking), .amount balance]
  | .void holdId released balance available => [.num2 holdId, .amount released, .amount balance, .amount available]
  | .refund trail amount remaining booking balance =>
    [.digits8 trail, .amount amount, .amount remaining, .cycle (some booking), .amount balance]

/-- A count that carries no mark, in the count type (R180; that open holds and sends are such counts is log 12). -/
def Value.plainCount (n : Nat) : Value := .count ⟨n, false⟩

/-- The values of R116 for a kind and outcome. -/
def ExOutcome.values (p : ExParams) (home serial : Nat) : ExOutcome → List Value
  | .ok v => v.values
  | .refused r value => [.num1 r.code, .amount value]
  | .noAnswer => p.values home serial
  | .unsure sends => p.values home serial ++ [.plainCount sends]

/-- The values READ_RESULT returns for a record, in the order of R182. -/
def ResultRec.values : ResultRec → List Value
  | .exchange tag token params home serial resolved outcome =>
    [.num1 params.kind.code, .num1 (if resolved then 5 else outcome.code)] ++
      (if resolved then [.num1 outcome.code] else []) ++
      [.num2 tag, .token token, .num1 home, .reference home serial] ++ outcome.values params home serial
  | .link outcome station cycle =>
    [.num1 6, .num1 outcome.code, .num2 0, .token 0, .num1 0, .noReference, .num1 station.code, .cycle (some cycle)]

/-- A group preceded by its flag: the values, or the flag clear and the fields zero (R180). -/
def optionalGroup {α : Type} (zero : α) (f : α → List Value) : Option α → List Value
  | some a => .flag true :: f a
  | none => .flag false :: f zero

/-- The figures of a set, each with its mark, in the order of R134 and R158. -/
def Figures.values (f : Figures) : List Value :=
  [.marked f.r, .marked f.l, .count f.k, .count f.lateCount, .marked f.lateAmount]

/-- A rate and fee of a response (R155, R183). -/
def Rate.values (r : Rate) : List Value := [.num2 r.bp, .num1 r.fee]

/-- A staged entry of a response: effective cycle, rate, fee (R183). -/
def Staged.values (e : Staged) : List Value := .cycle (some e.effective) :: e.rate.values

/-- The staged entries of a response: their number, then each (R155, R183). -/
def scheduleValues (es : List Staged) : List Value := .num1 es.length :: (es.map Staged.values).flatten

/-- The header of a statement, part 0 (R165). -/
def Statement.headerValues (s : Statement) : List Value :=
  [.num1 s.kind.code, .cycle (some s.cycle), .flag s.forced, .flag s.saturated] ++ s.rate.values ++
    [.marked s.own.s, .marked s.own.u, .marked s.own.x, .marked s.own.q, .marked s.g, .count s.k, .marked s.c,
     .marked s.lam, .marked s.n, .num1 s.direction.code, .amount s.amountDue, .num2 s.lines.length]

/-- A peer line of a statement (R158, R165): peer, R, L, K, late count, late amount. -/
def PeerLine.values (l : PeerLine) : List Value := .num1 l.peer :: l.figures.values

/-- The applied settings, in the order and types of R185. Bits 13 to 15 of the enables are given as 0 (log 45). -/
def Settings.values (s : Settings) : List Value :=
  [.num1 s.station, .num2 s.cardArea, .num2 s.holdArea, .num2 s.trailArea, .amount s.cardCeiling,
   .amount s.floatLimit, .amount s.exposureLimit, .amount s.exposureBand, .num2 s.holdLifetime,
   .num2 s.sealWindow, .num1 s.requestSpacing, .num1 s.retention, .num2 s.initialRate, .num1 s.initialFee,
   .num2 s.detectEnables.toNat, .num2 s.latchEnables.toNat, .flag s.stopOnError]

/-- The settings of a part that is not enrolled: zero and clear (R183). -/
def Settings.none : Settings :=
  { station := 0, cardArea := 0, holdArea := 0, trailArea := 0, cardCeiling := 0, floatLimit := 0,
    exposureLimit := 0, exposureBand := 0, holdLifetime := 0, sealWindow := 0, requestSpacing := 0, retention := 0,
    initialRate := 0, initialFee := 0, detectEnables := 0, latchEnables := 0, stopOnError := false }

end Sys2Proof.Machine
end

