-- ==== Sys2Proof/Machine/Flags.lean ====
section
/-! DEFINITION. The Monitor Unit's flag computations (chapter 10): live conditions, latched flags, shown states,
summary flags, the stopped condition and ATTN, and the pins formed from them. -/

namespace Sys2Proof.Machine

/-- The thirteen monitor sources, in index order (R171). -/
inductive Source where
  | clash | saturated | linkNoise | sendFailed | answerDropped | trailFull | holdTableFull | cycleBehind
  | reportLost | peerAbsent | peerWatch | peerExposure | peerBarred
  deriving DecidableEq, Repr

/-- The cycle `c` is the open cycle or the number of the sealing set (R65, R66). -/
def Cycles.isCurrent (cc : Cycles) (c : Nat) : Bool :=
  c == cc.openCycle || (match cc.sealing with | some ss => c == ss.cycle | none => false)

/-- The live condition of TRAIL_FULL (R66). -/
def trailFullLive (s : State) : Bool :=
  match s.tp.settings, s.tr.entries with
  | some st, e :: _ => s.tr.entries.length == st.trailArea && s.cc.isCurrent e.booking
  | _, _ => false

/-- The live condition of HOLD_TABLE_FULL (R39). -/
def holdTableFullLive (s : State) : Bool :=
  match s.tp.settings with
  | some st => s.ht.openCount == st.holdArea
  | none => false

/-- The live condition of a source, as its owner hands it over (R171). -/
def live (s : State) : Source → Bool
  | .clash => s.lc.clash
  | .saturated => s.mu.saturation
  | .linkNoise => decide (Config.noiseFrames ≤ s.lc.badFrames.length)
  | .sendFailed => s.lc.sendFailed.isSome
  | .answerDropped => s.lc.answerDropped.isSome
  | .trailFull => trailFullLive s
  | .holdTableFull => holdTableFullLive s
  | .cycleBehind => s.cc.phase == .deferred && s.cc.pendingTarget.isSome
  | .reportLost => s.su.reportLost
  | .peerAbsent => s.pt.any fun e => e.presence == .absent
  | .peerWatch => s.pt.any fun e => e.standing == .watch
  | .peerExposure => s.pt.any fun e => e.tripped
  | .peerBarred => s.pt.any fun e => e.standing == .barred || e.standing == .recheck

/-- The live conditions as a word, bit i−1 for source i (R171 note 1). -/
def liveBits (s : State) : BitVec 13 :=
  BitVec.ofBoolListLE
    [live s .clash, live s .saturated, live s .linkNoise, live s .sendFailed, live s .answerDropped,
     live s .trailFull, live s .holdTableFull, live s .cycleBehind, live s .reportLost, live s .peerAbsent,
     live s .peerWatch, live s .peerExposure, live s .peerBarred]

/-- The error-class sources: CLASH, SATURATED and PEER_BARRED (R171, R174). -/
def errorMask : BitVec 13 := 0x1003
/-- The peer-group sources 10 to 13 (R171). -/
def peerGroupMask : BitVec 13 := 0x1E00

/-- The shown states, by R172: false without detect, the live condition without latch, else the latched flag. -/
def shownBits (s : State) : BitVec 13 :=
  s.mu.detect &&& ((s.mu.latch &&& s.mu.latched) ||| (~~~s.mu.latch &&& liveBits s))

/-- The error flag (R174). -/
def errorFlag (s : State) : Bool := (shownBits s &&& errorMask) != 0
/-- The warning flag (R174). -/
def warningFlag (s : State) : Bool := (shownBits s &&& ~~~errorMask) != 0
/-- The station is stopped on error (R175). -/
def stopped (s : State) : Bool := s.mu.stopOnError && errorFlag s

/-- The latched flag of a source whose enables are both on is set whenever its live condition is true (R172). -/
def relatch (s : State) : State :=
  { s with mu := { s.mu with latched := s.mu.latched ||| (s.mu.detect &&& s.mu.latch &&& liveBits s) } }

/-- A statement slot holds a SEAL statement (R168). -/
def sealWaits (s : State) : Bool := s.su.slots.any fun x => x.statement.kind == .sealed

/-- The condition under which ATTN is asserted (R176). -/
def attnDue (s : State) : Bool := !s.tp.results.isEmpty || sealWaits s || errorFlag s

/-- The transmitter is driving the line (R190: LDE high while driving). -/
def Link.isDriving (l : Link) : Bool := match l.tx with | .idle => false | .driving .. => true

/-- The end of every operation: latches are set, then ATTN, LDE and LTX formed afresh (R171, R176, R76, R190). Without
main power the outputs are released (R190; for ATTN log 14). -/
def finish (s : State) : State :=
  if s.power then
    let s := relatch s
    { s with pins := { s.pins with attn := attnDue s, lde := s.lc.isDriving, ltx := s.lc.tx.level s.now } }
  else { s with pins := { s.pins with attn := false, lde := false, ltx := none } }

end Sys2Proof.Machine
end

