-- ==== Sys2Proof/Machine/Ops.lean ====
section
/-! DEFINITION. The named operations every family uses: the clock, the saturation indication, look-ups and single
changes of keyed records, replies, and the shape of a step. A block has no byte memory and no exception entry, so
none is here (INVENTORY.md, Memory and ordering). -/

namespace Sys2Proof.Machine

/-- What a step answers. -/
abbrev Answer := Host.Outcome State Fault Refusal

/-- A response before it is placed in the command buffer: its status and values (R180). -/
structure Reply where
  status : Status
  values : List Value
  deriving DecidableEq, Repr

/-- A reply that carries no values. -/
def Reply.plain (st : Status) : Reply := ⟨st, []⟩
/-- A refusal with a reason of R98 and no values. -/
def Reply.refuse (r : Reason) : Reply := ⟨.reason r, []⟩

/-- The moment of a command: the clock does not run backwards (log 1). -/
def State.atMoment (s : State) (t : Moment) : State := { s with now := max s.now t }

/-- A saturation report sets the saturation indication (R6). -/
def State.raiseSat (s : State) (b : Bool) : State :=
  { s with mu := { s.mu with saturation := s.mu.saturation || b } }

/-- The own station number; 0 before enrolment. -/
def State.own (s : State) : Nat :=
  match s.tp.settings with
  | some st => st.station
  | none => 0

/-- The card record of a serial. -/
def State.findCard (s : State) (n : Nat) : Option Card := s.ct.cards.find? fun c => c.serial == n

/-- One change to the card record of a serial (R8). -/
def State.modCard (s : State) (n : Nat) (f : Card → Card) : State :=
  { s with ct := { s.ct with cards := s.ct.cards.map fun c => if c.serial == n then f c else c } }

/-- The hold record of an id. -/
def State.findHold (s : State) (i : Nat) : Option Hold := s.ht.holds.find? fun h => h.id == i

/-- One change to the hold record of an id. -/
def State.modHold (s : State) (i : Nat) (f : Hold → Hold) : State :=
  { s with ht := { s.ht with holds := s.ht.holds.map fun h => if h.id == i then f h else h } }

/-- The peer held sum of a peer (R39). -/
def State.heldSum (s : State) (p : Nat) : Nat :=
  match s.ht.peerHeld.find? fun x => x.peer == p with
  | some x => x.sum
  | none => 0

/-- One change to a peer held sum (R49). -/
def State.modHeldSum (s : State) (p : Nat) (f : Nat → Nat) : State :=
  { s with ht := { s.ht with
      peerHeld := s.ht.peerHeld.map fun x => if x.peer == p then { x with sum := f x.sum } else x } }

/-- The Position Table entry of a station number (R119). -/
def State.peer (s : State) (p : Nat) : PeerEntry :=
  match s.pt.find? fun e => e.peer == p with
  | some e => e
  | none => PeerEntry.fresh p

/-- One change to the entry of a station number. -/
def State.modPeer (s : State) (p : Nat) (f : PeerEntry → PeerEntry) : State :=
  { s with pt := s.pt.map fun e => if e.peer == p then f e else e }

/-- One change to every entry of the Position Table. -/
def State.modPeers (s : State) (f : PeerEntry → PeerEntry) : State := { s with pt := s.pt.map f }

/-- The exchange of a tag; tags in the table are all different (R101). -/
def State.findExchange (s : State) (tag : Nat) : Option Exchange := s.xt.exchanges.find? fun e => e.tag == tag

/-- One change to the exchange of a tag. -/
def State.modExchange (s : State) (tag : Nat) (f : Exchange → Exchange) : State :=
  { s with xt := { s.xt with exchanges := s.xt.exchanges.map fun e => if e.tag == tag then f e else e } }

/-- The trail entry of a number. -/
def State.findTrail (s : State) (n : Nat) : Option TrailEntry := s.tr.entries.find? fun e => e.number == n

/-- One change to the trail entry of a number. -/
def State.modTrail (s : State) (n : Nat) (f : TrailEntry → TrailEntry) : State :=
  { s with tr := { s.tr with entries := s.tr.entries.map fun e => if e.number == n then f e else e } }

/-- The station is on the line and sends: ACTIVE or DRAINING (R90). -/
def Link.onLine (l : Link) : Bool := l.station == .active || l.station == .draining

/-- The station receives: LISTENING, ACTIVE or DRAINING, and not driving the line (R85, R90). -/
def Link.receives (l : Link) : Bool := (l.onLine || l.station == .listening) && !l.isDriving

/-- The number after `n` of a counter that runs from 1 to `hi` (R41, R64, R102, R159). -/
def nextInRing (hi n : Nat) : Nat := if n = hi then 1 else n + 1

/-- The first number, from `n` on around a ring of 1 to `hi`, that is not in `taken`, tried `fuel` times
(R41, R102). -/
def firstFree (hi : Nat) (taken : List Nat) : Nat → Nat → Nat
  | 0, n => n
  | fuel + 1, n => if n ∈ taken then firstFree hi taken fuel (nextInRing hi n) else n

/-- The last `k` of a list kept oldest first: what is left when the head is removed for each entry too many. -/
def keepLast {α : Type} (k : Nat) (l : List α) : List α := l.drop (l.length - k)

/-- The shape of a step: at its moment the command acts on a part that has main power, and the monitor and the pins
follow. A part without main power does nothing (R190: "Below 2.7 V the part stops all work"). -/
def event (t : Moment) (f : State → State) (s : State) : Answer :=
  .next (finish (if s.power then f (s.atMoment t) else s.atMoment t))

/-- An operation of an enrolled part; before enrolment no block holds anything it could act on (R184). -/
def whenEnrolled (s : State) (f : Settings → State) : State :=
  match s.tp.settings with
  | some st => f st
  | none => s

end Sys2Proof.Machine
end

