-- ==== Sys2Proof/Machine/Link.lean ====
section
/-! DEFINITION. The Link Controller's queues and the result queue: backoff draws, placing frames, filling the
request queue from its waiting sources (R83, R84), link results and waiting results (R95, R117, R182). -/

namespace Sys2Proof.Machine

/-- The backoff slots drawn for attempt `n`: a free value below 2^k, k the lesser of n and 8 (R80; log 6). -/
def drawnSlots (draws n : Nat) : Nat := Config.freeDraw draws % 2 ^ min n 8

/-- A new request queue; a frame that has come to its head draws its slots then (R80; log 7). -/
def State.setRequestQ (s : State) (q : List QFrame) : State :=
  match q with
  | [] => { s with lc := { s.lc with requestQ := [] } }
  | f :: rest =>
    match f.slots with
    | some _ => { s with lc := { s.lc with requestQ := f :: rest } }
    | none =>
      { s with lc := { s.lc with requestQ := { f with slots := some (drawnSlots s.draws f.attempt) } :: rest },
               draws := s.draws + 1 }

/-- A frame new to the request queue. -/
def QFrame.ofRequest (f : Frame) : QFrame := ⟨f, 1, none⟩

/-- A request frame joins at the tail (R84). -/
def State.queueRequest (s : State) (f : Frame) : State := s.setRequestQ (s.lc.requestQ ++ [.ofRequest f])

/-- The transmitter is driving the head of the request queue. -/
def Link.drivingRequest (l : Link) : Bool := match l.tx with | .driving false _ _ => true | _ => false

/-- The BEACON frame (R89). -/
def beaconFrame : Frame := ⟨0, 0, .beacon⟩

/-- A BEACON is placed at the head, or directly behind a head that is being driven; a head moved back keeps its
attempt number and will draw anew (R80, R84). -/
def State.placeBeacon (s : State) : State :=
  match s.lc.requestQ with
  | [] => s.setRequestQ [.ofRequest beaconFrame]
  | h :: rest =>
    if s.lc.drivingRequest then s.setRequestQ (h :: .ofRequest beaconFrame :: rest)
    else s.setRequestQ (.ofRequest beaconFrame :: { h with slots := none } :: rest)

/-- The kinds whose frames belong to the Exchange Table (R82). -/
def Body.ofExchange : Body → Bool
  | .ask .. | .take .. | .free .. | .credit .. => true
  | _ => false

/-- The frame of an exchange, as built when it enters the request queue (R103, R106). -/
def Exchange.frame (e : Exchange) : Frame :=
  ⟨e.home, e.tag,
    match e.params with
    | .hold asked least => .ask e.home e.serial asked least
    | .probe => .ask e.home e.serial 0 0
    | .capture holdId amount => .take holdId e.serial amount
    | .void holdId => .free holdId e.serial
    | .refund trail amount => .credit e.serial trail amount⟩

/-- A frame of the exchange with this tag stands in the request queue. -/
def State.frameStands (s : State) (tag : Nat) : Bool :=
  s.lc.requestQ.any fun q => q.frame.tag == tag && q.frame.body.ofExchange

/-- The exchange is offered to the request queue: QUEUED, or UNSURE with resend wanted, and it has no frame there
(R106). -/
def State.offersFrame (s : State) (e : Exchange) : Bool :=
  (e.state == .queued || (e.state == .unsure && e.resendWanted)) && !s.frameStands e.tag

/-- What the entry of its frame into the request queue does to an exchange (R106). -/
def Exchange.sent (e : Exchange) : Exchange :=
  if e.state == .queued then { e with state := .waiting, sends := e.sends + 1 } else { e with resendWanted := false }

/-- The TALLY to a peer, built from its entry as it stands (R150). -/
def tallyFrame (e : PeerEntry) : Frame := ⟨e.peer, 0, .tally e.sLast e.lifeRs e.lifeLs⟩

/-- One change to the marks of a peer. -/
def State.modWanted (s : State) (p : Nat) (f : WantedMarks → WantedMarks) : State :=
  { s with lc := { s.lc with wanted := s.lc.wanted.map fun m => if m.peer == p then f m else m } }

/-- The first peer, in ascending number, with a mark set (R84). A TALLY is not built while s_last is 0 (R150). -/
def State.firstWanted (s : State) : Option WantedMarks :=
  s.lc.wanted.find? fun m => (m.tally && (s.peer m.peer).sLast != 0) || m.check

/-- One place of the request queue is filled from the waiting sources in their order: the held beacon, the marks,
the exchanges in admission order (R84). None when there is no room, nothing waits, or the station does not send. -/
def State.fillOne (s : State) : Option State :=
  if !s.lc.onLine || decide (Config.linkQueueMax ≤ s.lc.requestQ.length) then none
  else if s.lc.heldBeacon then some { s with lc := { s.lc with heldBeacon := false } }.placeBeacon
  else
    match s.firstWanted with
    | some m =>
      if m.tally && (s.peer m.peer).sLast != 0 then
        some ((s.modWanted m.peer fun m => { m with tally := false }).queueRequest (tallyFrame (s.peer m.peer)))
      else some ((s.modWanted m.peer fun m => { m with check := false }).queueRequest ⟨m.peer, 0, .check⟩)
    | none =>
      match s.xt.exchanges.find? s.offersFrame with
      | some e => some ((s.modExchange e.tag Exchange.sent).queueRequest e.frame)
      | none => none

/-- Filling repeated at most `n` times. -/
def State.fillTimes : Nat → State → State
  | 0, s => s
  | n + 1, s =>
    match s.fillOne with
    | some s' => State.fillTimes n s'
    | none => s

/-- The request queue is filled while it has room and a source waits (R84): at most its sixteen places. -/
def State.fillRequests (s : State) : State := s.fillTimes Config.linkQueueMax

/-- A beacon time: a BEACON is made unless one stands in the queue or is held; without room it is held (R89). -/
def State.makeBeacon (s : State) : State :=
  if s.lc.heldBeacon || s.lc.requestQ.any fun q => q.frame.body == .beacon then s
  else if s.lc.requestQ.length < Config.linkQueueMax then s.placeBeacon
  else { s with lc := { s.lc with heldBeacon := true } }

/-- The interval to the next beacon time: 950 to 1,050 ms, a free value within it (R89; log 6). -/
def beaconInterval (draws : Nat) : Moment := Config.beaconLeast + Config.freeDraw draws % (Config.beaconSpread + 1)

/-- The beacon time `at0` is taken: the BEACON is made and the next time set from this one (R89). -/
def State.beaconDue (s : State) (at0 : Moment) : State :=
  { s with lc := { s.lc with beaconAt := some (at0 + beaconInterval s.draws) }, draws := s.draws + 1 }.makeBeacon

/-- An answer is offered to the answer queue: it joins the tail, or is dropped when sixteen stand there, which
makes ANSWER_DROPPED true for 1,000 ms (R83). -/
def State.offerAnswer (s : State) (f : Frame) : State :=
  if s.lc.answerQ.length < Config.linkQueueMax then
    { s with lc := { s.lc with answerQ := s.lc.answerQ ++ [⟨f, 1, some 0⟩] } }
  else { s with lc := { s.lc with answerDropped := some (s.now + Config.noiseSpan) } }

/-- The frame of an ended exchange leaves the request queue unless it is being driven (R106). -/
def State.withdrawFrame (s : State) (tag : Nat) : State :=
  let keep : QFrame → Bool := fun q => !(q.frame.tag == tag && q.frame.body.ofExchange)
  match s.lc.requestQ with
  | [] => s
  | h :: rest =>
    if s.lc.drivingRequest then s.setRequestQ (h :: rest.filter keep)
    else s.setRequestQ ((h :: rest).filter keep)

/-! ### Results -/

/-- Of two waiting exchanges, the one whose result became pending first. -/
def earlierOf (a : Exchange) : Option Exchange → Exchange
  | none => a
  | some b =>
    match a.result, b.result with
    | some x, some y => if x.place ≤ y.place then a else b
    | none, some _ => b
    | _, none => a

/-- The exchange whose pending result became pending first (R117, R182). -/
def oldestWaiting : List Exchange → Option Exchange
  | [] => none
  | e :: es => if e.result.isSome then some (earlierOf e (oldestWaiting es)) else oldestWaiting es

/-- A result record enters the result queue at its tail (R182). -/
def State.enterResult (s : State) (r : ResultRec) : State := { s with tp := { s.tp with results := s.tp.results ++ [r] } }

/-- The result of an exchange has entered: a DONE exchange leaves the table, an UNSURE one stays (R117). -/
def State.resultDelivered (s : State) (e : Exchange) : State :=
  { s with xt := { s.xt with
      exchanges :=
        if e.state == .done then s.xt.exchanges.filter fun x => x.tag != e.tag
        else s.xt.exchanges.map fun x => if x.tag == e.tag then { x with result := none } else x } }

/-- The result of a waiting exchange enters the queue. -/
def State.enterExchange (s : State) (e : Exchange) (w : Waiting) : State := (s.enterResult w.result).resultDelivered e

/-- The held link result enters the queue. -/
def State.enterLink (s : State) (w : Waiting) : State :=
  { s.enterResult w.result with lc := { s.lc with heldLink := none } }

/-- When the result queue has room, the waiting result that became pending first enters it, whichever source holds
it (R182). None when there is no room or nothing waits. -/
def State.fillResult (s : State) : Option State :=
  if Config.exchangesMax ≤ s.tp.results.length then none
  else
    match oldestWaiting s.xt.exchanges, s.lc.heldLink with
    | none, none => none
    | none, some w => some (s.enterLink w)
    | some e, none =>
      match e.result with
      | some x => some (s.enterExchange e x)
      | none => none
    | some e, some w =>
      match e.result with
      | some x => some (if x.place < w.place then s.enterExchange e x else s.enterLink w)
      | none => none

/-- Filling the result queue at most `n` times. -/
def State.fillResultTimes : Nat → State → State
  | 0, s => s
  | n + 1, s =>
    match s.fillResult with
    | some s' => State.fillResultTimes n s'
    | none => s

/-- Waiting results enter while there is room (R117, R182). -/
def State.fillResults (s : State) : State := s.fillResultTimes Config.exchangesMax

/-- A link result with the station state and open cycle as they stand: it enters at once, or is held in place of any
held before it (R95, R182). -/
def State.linkResult (s : State) (o : LinkOutcome) : State :=
  let r : ResultRec := .link o s.lc.station s.cc.openCycle
  if s.tp.results.length < Config.exchangesMax then s.enterResult r
  else { s with lc := { s.lc with heldLink := some ⟨r, s.seq⟩ }, seq := s.seq + 1 }

end Sys2Proof.Machine
end

