-- ==== Sys2Proof/Machine/Peers.lean ====
section
/-! DEFINITION. The Position Table's operations (chapter 7): presence, bookings, exposure and its comparator,
standing, protocol faults, the marks for TALLY and CHECK frames, and the comparison of a tally (R153). -/

namespace Sys2Proof.Machine

/-! ### Exposure -/

/-- A part of the exposure: a figure of L at its value when above zero, else zero (R125). -/
def exposurePart (t : Total) : Total := ⟨max t.val 0, t.mark⟩

/-- The exposure of an entry, formed by ADD from its three parts (R125). -/
def exposureChain (e : PeerEntry) (held : Nat) : Chain :=
  chainSum [exposurePart e.openF.l, (match e.sealF with | some f => exposurePart f.l | none => .zero), ⟨held, false⟩]

/-- The comparator after exposure `x` is formed (R126). -/
def comparatorAfter (st : Settings) (tripped : Bool) (x : Int) : Bool :=
  if tripped then
    !(compareAmounts x ((st.exposureLimit : Int) - st.exposureBand) != .greater &&
      compareAmounts x st.exposureLimit == .less)
  else compareAmounts x st.exposureLimit != .less

/-- An entry with its exposure formed afresh and its comparator evaluated (R125, R126). -/
def PeerEntry.withExposure (e : PeerEntry) (st : Settings) (held : Nat) : PeerEntry :=
  { e with exposure := (exposureChain e held).total, tripped := comparatorAfter st e.tripped (exposureChain e held).val }

/-- The exposure of one peer is formed afresh (R125). -/
def State.formExposure (s : State) (st : Settings) (p : Nat) : State :=
  (s.modPeer p fun e => e.withExposure st (s.heldSum p)).raiseSat (exposureChain (s.peer p) (s.heldSum p)).stuck

/-- The exposure of every peer is formed afresh (R125: a close, a seal, a warm start). -/
def State.formExposures (s : State) (st : Settings) : State :=
  (s.modPeers fun e => e.withExposure st (s.heldSum e.peer)).raiseSat
    (s.pt.any fun e => (exposureChain e (s.heldSum e.peer)).stuck)

/-! ### Home-side bookings -/

/-- A booking of `x` to a peer's open L and lifetime L: a capture adds, a refund takes away (R123, R55, R72). The
exposure is formed afresh. -/
def State.bookLiability (s : State) (st : Settings) (p : Nat) (x : Int) : State :=
  ((s.modPeer p fun e => { e with openF := { e.openF with l := e.openF.l.acc x }, lifeL := e.lifeL.acc x }).raiseSat
    ((s.peer p).openF.l.accSat x || (s.peer p).lifeL.accSat x)).formExposure st p

/-! ### Asking-side bookings -/

/-- The set a TAKEN or CREDITED is booked into: the sealing set when its booking cycle names it (R115). -/
def Cycles.booksSealing (cc : Cycles) (b : Nat) : Bool :=
  b != cc.openCycle && (match cc.sealing with | some ss => b == ss.cycle | none => false)

/-- A booking cycle that names neither the open cycle nor the sealing set makes the booking late (R115). -/
def Cycles.booksLate (cc : Cycles) (b : Nat) : Bool := !(cc.isCurrent b)

/-- Figures after a booking of `x` to R, with K counted for a capture (R115, R123). -/
def Figures.bookR (f : Figures) (x : Int) (counts : Bool) : Figures :=
  { f with r := f.r.acc x, k := if counts then f.k.inc else f.k }

/-- The booking to R and K reports saturation. -/
def Figures.bookRSat (f : Figures) (x : Int) (counts : Bool) : Bool := f.r.accSat x || (counts && f.k.incSat)

/-- Open figures after a late booking of amount `a` (R115, R123). -/
def Figures.bookLate (f : Figures) (a : Int) : Figures :=
  { f with lateCount := f.lateCount.inc, lateAmount := f.lateAmount.acc a }

/-- An entry after an asking-side booking: `x` to R of the set and to lifeR, K for a capture, and the late figures of
the open set when the booking is late (R115, R123). -/
def PeerEntry.bookAsking (e : PeerEntry) (toSealing late counts : Bool) (amount : Nat) (x : Int) : PeerEntry :=
  let e := if toSealing then { e with sealF := e.sealF.map fun f => f.bookR x counts }
    else { e with openF := e.openF.bookR x counts }
  let e := { e with lifeR := e.lifeR.acc x }
  if late then { e with openF := e.openF.bookLate amount } else e

/-- An asking-side booking reports saturation. -/
def PeerEntry.bookAskingSat (e : PeerEntry) (toSealing late counts : Bool) (amount : Nat) (x : Int) : Bool :=
  (if toSealing then (match e.sealF with | some f => f.bookRSat x counts | none => false)
    else e.openF.bookRSat x counts) || e.lifeR.accSat x ||
    (late && (e.openF.lateCount.incSat || e.openF.lateAmount.accSat amount))

/-- A TAKEN (`counts`, R raised) or CREDITED (R lowered) of `amount` with booking cycle `b` is booked into the entry
of its source; an orphan booking is late whatever its row (R115). -/
def State.bookAnswer (s : State) (p amount b : Nat) (counts orphan : Bool) : State :=
  let x : Int := if counts then amount else -(amount : Int)
  let late := orphan || s.cc.booksLate b
  (s.modPeer p fun e => e.bookAsking (s.cc.booksSealing b) late counts amount x).raiseSat
    ((s.peer p).bookAskingSat (s.cc.booksSealing b) late counts amount x)

/-! ### Frames owed to a peer -/

/-- A frame to `p` that `q` picks stands in the request queue. -/
def State.linkFrameStands (s : State) (p : Nat) (q : Body → Bool) : Bool :=
  s.lc.requestQ.any fun f => f.frame.dest == p && q f.frame.body

/-- The marks of a peer. -/
def State.wantedMarks (s : State) (p : Nat) : WantedMarks :=
  match s.lc.wanted.find? fun m => m.peer == p with
  | some m => m
  | none => ⟨p, false, false⟩

/-- The body is a TALLY. -/
def Body.isTally : Body → Bool | .tally .. => true | _ => false
/-- The body is a CHECK. -/
def Body.isCheck : Body → Bool | .check => true | _ => false

/-- The tally-wanted mark of a peer is set; the frame enters at once when there is room (R84). -/
def State.setTallyWanted (s : State) (p : Nat) : State :=
  (s.modWanted p fun m => { m with tally := true }).fillRequests

/-- The check-wanted mark of a peer is set; the frame enters at once when there is room (R84). -/
def State.setCheckWanted (s : State) (p : Nat) : State :=
  (s.modWanted p fun m => { m with check := true }).fillRequests

/-- At each moment R132 names: while tally owed is set and the station is on the line, the tally-wanted mark is set
for a PRESENT peer unless it is set or a TALLY to the peer stands in the request queue. -/
def State.askTally (s : State) (p : Nat) : State :=
  if (s.peer p).tallyOwed && s.lc.onLine && (s.peer p).presence == .present && !(s.wantedMarks p).tally
      && !s.linkFrameStands p Body.isTally then s.setTallyWanted p
  else s

/-- At each moment R130 names: while the standing is RECHECK, the check-wanted mark is set on the same terms. -/
def State.askCheck (s : State) (p : Nat) : State :=
  if (s.peer p).standing == .recheck && s.lc.onLine && (s.peer p).presence == .present && !(s.wantedMarks p).check
      && !s.linkFrameStands p Body.isCheck then s.setCheckWanted p
  else s

/-- The frames a peer is owed are asked for, the TALLY first (R84, R122). -/
def State.askOwed (s : State) (p : Nat) : State := (s.askTally p).askCheck p

/-- The frames every PRESENT peer is owed, asked for when the station enters ACTIVE (R122). -/
def State.askOwedAll (s : State) : State := stationNumbers.foldl State.askOwed s

/-! ### Presence -/

/-- A readable header from a peer: PRESENT, the last-heard timer restarted at 5,000 ms, the sender's state and cycle
kept (R121). -/
def PeerEntry.hear (e : PeerEntry) (now : Moment) (h : Header) : PeerEntry :=
  { e with presence := .present, lastHeard := some (now + Config.absenceSpan), lastState := some h.senderState,
           lastCycle := some h.cycle }

/-- Step 2 of R86: presence is refreshed, and a peer that becomes PRESENT while the station is on the line is asked
for what it is owed (R121, R122). -/
def State.hearPeer (s : State) (h : Header) : State :=
  let was := (s.peer h.source).presence
  let s := s.modPeer h.source fun e => e.hear s.now h
  if was != .present && s.lc.onLine then s.askOwed h.source else s

/-- The station enters OFFLINE or WITHDRAWN: every presence returns to UNKNOWN and its timer stops (R121). -/
def State.forgetPresence (s : State) : State :=
  s.modPeers fun e => { e with presence := .unknown, lastHeard := none }

/-! ### Standing -/

/-- A protocol fault: the count rises by one up to 255, and the raise to 4 bars the peer (R128). -/
def PeerEntry.fault (e : PeerEntry) : PeerEntry :=
  { e with protocolCount := min 255 (e.protocolCount + 1),
           standing := if e.protocolCount + 1 = Config.protocolBar then .barred else e.standing }

/-- A protocol fault of a peer (R87, R45, R128). -/
def State.protocolFault (s : State) (p : Nat) : State := relatch (s.modPeer p PeerEntry.fault)

/-- The standing after a comparison (R127). -/
def Standing.after (st : Standing) (isMatch : Bool) : Standing :=
  match st, isMatch with
  | .good, true => .good | .watch, true => .good | .barred, true => .barred | .recheck, true => .good
  | .good, false => .watch | .watch, false => .barred | .barred, false => .barred | .recheck, false => .barred

/-- Two figures agree: values equal by COMPARE and marks equal (R153). -/
def Total.agrees (a b : Total) : Bool := compareAmounts a.val b.val == .equal && a.mark == b.mark

/-- The comparison of a tally with the own entry is a match (R153). -/
def PeerEntry.tallyMatches (e : PeerEntry) (y : Tally) : Bool := y.r.agrees e.lifeLs && y.l.agrees e.lifeRs

/-- An entry after the comparison of a tally: standing by R127, last mismatch removed at a match and set to the two
differences otherwise (R153). -/
def PeerEntry.compareTally (e : PeerEntry) (y : Tally) : PeerEntry :=
  { e with standing := e.standing.after (e.tallyMatches y),
           lastMismatch := if e.tallyMatches y then none else some (e.lifeRs.diff y.l, e.lifeLs.diff y.r) }

/-- The comparison of a tally reports saturation. -/
def PeerEntry.compareTallySat (e : PeerEntry) (y : Tally) : Bool :=
  !e.tallyMatches y && (e.lifeRs.diffSat y.l || e.lifeLs.diffSat y.r)

/-- How a tally of cycle `c` is sorted (R151). -/
inductive TallySort where
  | stale | comparable | later
  deriving DecidableEq, Repr

/-- The conditions of R151 for a tally of cycle `c` against s_last and the Cycle Controller. -/
def tallySort (cc : Cycles) (sLast c : Nat) : TallySort :=
  if c < sLast then .stale
  else if decide (c < cc.openCycle) && !(match cc.sealing with | some ss => decide (ss.cycle ≤ c) | none => false) then
    .comparable
  else .later

/-- An entry after a TALLY from its peer is taken (R151). -/
def PeerEntry.takeTally (e : PeerEntry) (cc : Cycles) (y : Tally) : PeerEntry :=
  match tallySort cc e.sLast y.cycle with
  | .stale => e
  | .comparable => { e.compareTally y with pendingTally := none }
  | .later => { e with pendingTally := some y }

/-- Taking a TALLY reports saturation. -/
def PeerEntry.takeTallySat (e : PeerEntry) (cc : Cycles) (y : Tally) : Bool :=
  tallySort cc e.sLast y.cycle == .comparable && e.compareTallySat y

/-- An entry after its pending tally is tested again (R152). -/
def PeerEntry.retestTally (e : PeerEntry) (cc : Cycles) : PeerEntry :=
  match e.pendingTally with
  | none => e
  | some y =>
    match tallySort cc e.sLast y.cycle with
    | .stale => { e with pendingTally := none }
    | .comparable => { e.compareTally y with pendingTally := none }
    | .later => e

/-- Testing a pending tally again reports saturation. -/
def PeerEntry.retestTallySat (e : PeerEntry) (cc : Cycles) : Bool :=
  match e.pendingTally with
  | none => false
  | some y => e.takeTallySat cc y

end Sys2Proof.Machine
end

