-- ==== Sys2Proof/Machine/Cards.lean ====
section
/-! DEFINITION. The Card Table (chapter 2): lapse and the access test, the changes made for the Hold Table and the
Capture Trail, the till commands on own cards, and the step of the sweep. -/

namespace Sys2Proof.Machine

/-- A record is due (R31). -/
def Card.due (c : Card) (openCycle : Nat) : Bool :=
  (c.state == .active || c.state == .frozen) && (match c.expiry with | some x => decide (x ≤ openCycle) | none => false)

/-- A due record with open holds is lapse pending (R31). -/
def Card.lapsePending (c : Card) (openCycle : Nat) : Bool := c.due openCycle && decide (0 < c.openHolds)

/-- A record after its lapse (R31). -/
def Card.lapse (c : Card) (openCycle : Nat) : Card :=
  { c with state := .lapsed, balance := 0, lastChange := openCycle, sweepMark := openCycle }

/-- A lapse goes to the sealing set while a sweep runs that has not examined the record (R31). -/
def State.lapsesToSealing (s : State) (c : Card) : Bool := s.ct.cursor.isSome && decide (c.sweepMark < s.cc.openCycle)

/-- Own totals after a lapse of `x` is booked into Q. -/
def OwnTotals.bookQ (o : OwnTotals) (x : Int) : OwnTotals := { o with q := o.q.acc x }

/-- The lapse of a due record without open holds, booked as R31 gives. -/
def State.lapseCard (s : State) (c : Card) : State :=
  let x : Int := c.balance
  let o := s.cc.openCycle
  let toSealing := s.lapsesToSealing c
  let sat := s.ct.life.lapses.accSat x ||
    (if toSealing then (match s.ct.sealOwn with | some w => w.q.accSat x | none => false) else s.ct.openOwn.q.accSat x)
  let s' := s.modCard c.serial fun c => c.lapse o
  { s' with ct := { s'.ct with
      float := s'.ct.float - x,
      life := { s'.ct.life with lapses := s'.ct.life.lapses.acc x },
      openOwn := if toSealing then s'.ct.openOwn else s'.ct.openOwn.bookQ x,
      sealOwn := if toSealing then s'.ct.sealOwn.map (OwnTotals.bookQ · x) else s'.ct.sealOwn } }.raiseSat sat

/-- A record that is due and has no open holds is lapsed at once (R31, R32, R33). -/
def State.lapseIfDue (s : State) (n : Nat) : State :=
  match s.findCard n with
  | some c => if c.due s.cc.openCycle && c.openHolds == 0 then s.lapseCard c else s
  | none => s

/-! ### Changes made for the Hold Table and the Capture Trail (R26) -/

/-- The grant of a hold of amount `g`. -/
def Card.grant (c : Card) (g : Nat) : Card := { c with held := c.held + g, openHolds := c.openHolds + 1 }

/-- The capture of `x` from a hold of amount `h`. -/
def Card.capture (c : Card) (x h openCycle : Nat) : Card :=
  { c with balance := c.balance - x, held := c.held - h, openHolds := c.openHolds - 1, lastChange := openCycle }

/-- The end of a hold of amount `h` without capture. -/
def Card.release (c : Card) (h : Nat) : Card := { c with held := c.held - h, openHolds := c.openHolds - 1 }

/-- A refund of `f`. -/
def Card.refund (c : Card) (f openCycle : Nat) : Card :=
  { c with balance := c.balance + f, lastChange := openCycle }

/-- The capture of `x` from a hold of `h` on card `n`: record, float, lifetime captures, and U when the redeemer is
the own station (R26). -/
def State.cardCapture (s : State) (n x h : Nat) (ownRedeems : Bool) : State :=
  let o := s.cc.openCycle
  let sat := s.ct.life.captures.accSat x || (ownRedeems && s.ct.openOwn.u.accSat x)
  let s' := s.modCard n fun c => c.capture x h o
  { s' with ct := { s'.ct with
      float := s'.ct.float - x,
      life := { s'.ct.life with captures := s'.ct.life.captures.acc x },
      openOwn := if ownRedeems then { s'.ct.openOwn with u := s'.ct.openOwn.u.acc x } else s'.ct.openOwn } }.raiseSat sat

/-- A refund of `f` to card `n`: record, float, lifetime refunds, and U when the redeemer is the own station (R26). -/
def State.cardRefund (s : State) (n f : Nat) (ownRedeems : Bool) : State :=
  let o := s.cc.openCycle
  let sat := s.ct.life.refunds.accSat f || (ownRedeems && s.ct.openOwn.u.accSat (-(f : Int)))
  let s' := s.modCard n fun c => c.refund f o
  { s' with ct := { s'.ct with
      float := s'.ct.float + f,
      life := { s'.ct.life with refunds := s'.ct.life.refunds.acc f },
      openOwn := if ownRedeems then { s'.ct.openOwn with u := s'.ct.openOwn.u.acc (-(f : Int)) }
        else s'.ct.openOwn } }.raiseSat sat

/-! ### Till commands on own cards -/

/-- The float-limit test of R7: fails for any amount of at least 0.01 when the float is above the limit. -/
def floatAllows (st : Settings) (float : Int) (amount : Nat) : Bool :=
  if float ≤ st.floatLimit then decide ((amount : Int) ≤ (st.floatLimit : Int) - float) else amount == 0

/-- The validity of ISSUE as applied (R20). -/
def appliedValidity (v : Nat) : Nat := min v Config.validityMax

/-- The expiry cycle of a card issued in `openCycle` (R20). -/
def expiryOf (openCycle validity : Nat) : Option Nat :=
  if validity = 0 then none else some (min Config.countMax (openCycle + validity))

/-- The serial counter after serial `n` is taken (R21). -/
def serialAfter (n : Nat) : Option Nat := if n = Config.serialMax then none else some (n + 1)

/-- Value enters the float by an ISSUE or LOAD: float, open S and lifetime loads (R20, R22). -/
def State.floatIn (s : State) (a : Nat) : State :=
  { s with ct := { s.ct with
      float := s.ct.float + a,
      life := { s.ct.life with loads := s.ct.life.loads.acc a },
      openOwn := { s.ct.openOwn with s := s.ct.openOwn.s.acc a } } }.raiseSat
    (s.ct.life.loads.accSat a || s.ct.openOwn.s.accSat a)

/-- ISSUE once every check has passed: a new ACTIVE record with serial `n` (R20). -/
def State.issueCard (s : State) (st : Settings) (n a v : Nat) : State × Reply :=
  let o := s.cc.openCycle
  let c : Card :=
    { serial := n, state := .active, balance := a, held := 0, openHolds := 0, expiry := expiryOf o v, lastChange := o,
      sweepMark := o }
  ({ s with ct := { s.ct with cards := s.ct.cards ++ [c], serialNext := serialAfter n } }.floatIn a,
    ⟨.ok, [.reference st.station n, .amount a, .cycle c.expiry, .cycle (some v)]⟩)

/-- ISSUE: its checks in the order of R20. -/
def State.issue (s : State) (st : Settings) (a validity : Nat) : State × Reply :=
  if a = 0 then (s, .refuse .amount)
  else if st.cardCeiling < a then (s, .refuse .ceiling)
  else if !floatAllows st s.ct.float a then (s, .plain .floatLimit)
  else if st.cardArea ≤ s.ct.cards.length then (s, .plain .cardTableFull)
  else
    match s.ct.serialNext with
    | none => (s, .plain .serialsExhausted)
    | some n => s.issueCard st n a (appliedValidity validity)

/-- A till command naming a serial: the record is looked up and the access test made, then the command's own checks
run on the record as that leaves it (R19, R32). -/
def State.onCard (s : State) (n : Nat) (f : State → Card → State × Reply) : State × Reply :=
  match s.findCard n with
  | none => (s, .refuse .unknownCard)
  | some _ =>
    let s := s.lapseIfDue n
    match s.findCard n with
    | none => (s, .refuse .unknownCard)
    | some c => f s c

/-- LOAD once every check has passed (R22). -/
def State.loadCard (s : State) (c : Card) (a : Nat) : State × Reply :=
  let o := s.cc.openCycle
  ((s.modCard c.serial fun c => { c with balance := c.balance + a, lastChange := o }).floatIn a,
    ⟨.ok, [.amount (c.balance + a), .amount c.held, .amount (c.balance + a - c.held)]⟩)

/-- LOAD: its checks in the order of R22. -/
def State.load (s : State) (st : Settings) (n a : Nat) : State × Reply :=
  s.onCard n fun s c =>
    if a = 0 then (s, .refuse .amount)
    else if c.lapsePending s.cc.openCycle then (s, .refuse .cardLapsed)
    else
      match c.state with
      | .frozen => (s, .refuse .cardFrozen)
      | .closed => (s, .refuse .cardClosed)
      | .lapsed => (s, .refuse .cardLapsed)
      | .active =>
        if st.cardCeiling - c.balance < a then (s, .refuse .ceiling)
        else if !floatAllows st s.ct.float a then (s, .plain .floatLimit)
        else s.loadCard c a

/-- CASHOUT once every check has passed (R23). -/
def State.cashoutCard (s : State) (c : Card) : State × Reply :=
  let o := s.cc.openCycle
  let x : Int := c.balance
  let s' := s.modCard c.serial fun c => { c with state := .closed, balance := 0, lastChange := o }
  ({ s' with ct := { s'.ct with
      float := s'.ct.float - x,
      life := { s'.ct.life with cashouts := s'.ct.life.cashouts.acc x },
      openOwn := { s'.ct.openOwn with x := s'.ct.openOwn.x.acc x } } }.raiseSat
        (s.ct.life.cashouts.accSat x || s.ct.openOwn.x.accSat x),
    ⟨.ok, [.amount c.balance]⟩)

/-- CASHOUT: its checks in the order of R23. -/
def State.cashout (s : State) (n : Nat) : State × Reply :=
  s.onCard n fun s c =>
    if c.state = .closed then (s, .refuse .cardClosed)
    else if c.state = .lapsed || c.lapsePending s.cc.openCycle then (s, .refuse .cardLapsed)
    else if 0 < c.openHolds then (s, .plain .cardHoldsOpen)
    else s.cashoutCard c

/-- FREEZE and THAW: the state becomes `goal`; a record already there is not changed (R24). -/
def State.setFrozen (s : State) (n : Nat) (goal : CardState) : State × Reply :=
  s.onCard n fun s c =>
    if c.state = .closed then (s, .refuse .cardClosed)
    else if c.state = .lapsed || c.lapsePending s.cc.openCycle then (s, .refuse .cardLapsed)
    else if c.state = goal then (s, ⟨.ok, [.num1 goal.code]⟩)
    else
      let o := s.cc.openCycle
      (s.modCard n fun c => { c with state := goal, lastChange := o }, ⟨.ok, [.num1 goal.code]⟩)

/-- ENQUIRE on an own card (R25); open holds are sent in the count type (log 12). -/
def State.enquireOwn (s : State) (n : Nat) : State × Reply :=
  s.onCard n fun s c =>
    (s, ⟨.ok, [.num1 c.state.code, .amount c.balance, .amount c.held, .amount (c.balance - c.held),
      .plainCount c.openHolds, .cycle c.expiry, .flag (c.lapsePending s.cc.openCycle)]⟩)

/-! ### The sweep -/

/-- The record the running sweep examines next: the first in map order above the cursor (R34). -/
def State.nextSwept (s : State) : Option Card :=
  match s.ct.cursor with
  | none => none
  | some k => s.ct.cards.find? fun c => decide (k < c.serial)

/-- A CLOSED or LAPSED record past its retention (R35). -/
def Card.purgeable (c : Card) (openCycle retention : Nat) : Bool :=
  decide (retention < openCycle) && decide (c.lastChange + retention ≤ openCycle)

/-- The examination of a record by the sweep (R34, R35). -/
def State.examine (s : State) (st : Settings) (c : Card) : State :=
  let o := s.cc.openCycle
  if c.sweepMark = o then s
  else if c.due o && c.openHolds == 0 then s.lapseCard c
  else if (c.state == .closed || c.state == .lapsed) && c.purgeable o st.retention then
    { s with ct := { s.ct with cards := s.ct.cards.filter fun x => x.serial != c.serial } }
  else s.modCard c.serial fun c => { c with sweepMark := o }

/-- The cursor moves to a serial. -/
def State.setCursor (s : State) (k : Option Nat) : State := { s with ct := { s.ct with cursor := k } }

end Sys2Proof.Machine
end

