-- ==== Sys2Proof/Machine/Holds.lean ====
section
/-! DEFINITION. The Hold Table and the Capture Trail (chapters 3 and 4): the checks and effects of ASK, TAKE, FREE and
CREDIT from peers and of AUTHORIZE, CAPTURE, VOID and REFUND at the own till, and the lapse of a hold. -/

namespace Sys2Proof.Machine

/-! ### Cells, ids and grants -/

/-- A cell for a new hold: a free one, or the record at the head of the end list removed; none when every cell holds
an OPEN record (R42). -/
def State.takeCell (s : State) (st : Settings) : Option State :=
  if s.ht.holds.length < st.holdArea then some s
  else
    match s.ht.endList with
    | [] => none
    | i :: rest => some { s with ht := { s.ht with holds := s.ht.holds.filter fun h => h.id != i, endList := rest } }

/-- The id of a new hold, given after its cell has been taken (R41). -/
def State.newHoldId (s : State) : Nat :=
  firstFree Config.idMax (s.ht.holds.map Hold.id) (s.ht.holds.length + 1) s.ht.nextId

/-- A new OPEN hold record (R47). -/
def newHold (id serial asker : Nat) (askTag : Option Nat) (asked least g : Nat) (deadline : Moment) : Hold :=
  { id := id, serial := serial, asker := asker, askTag := askTag, asked := asked, least := least, amount := g,
    state := .held, deadline := some deadline, captureTag := none, captured := none, trailNo := none, booking := none }

/-- The hold is made: record, counters, the card's held and open holds, and for a peer its held sum and exposure
(R47, R49). `s` has its cell free. -/
def State.makeHold (s : State) (st : Settings) (asker : Nat) (askTag : Option Nat) (serial asked least g : Nat) : State :=
  let id := s.newHoldId
  let isPeer := asker != st.station
  let s1 := { s with ht := { s.ht with
      holds := s.ht.holds ++ [newHold id serial asker askTag asked least g (s.now + st.holdLifetime * 1000000)],
      openCount := s.ht.openCount + 1,
      peerOpenCount := if isPeer then s.ht.peerOpenCount + 1 else s.ht.peerOpenCount,
      nextId := nextInRing Config.idMax id } }.modCard serial fun c => c.grant g
  if isPeer then (s1.modHeldSum asker fun x => x + g).formExposure st asker else s1

/-- What a request for a hold comes to. -/
inductive HoldAnswer where
  | refused (r : Reason) (value : Nat)
  | granted (id g residual available balance : Nat) (expiry : Option Nat)
  | probe (available balance : Nat) (expiry : Option Nat)
  deriving DecidableEq, Repr

/-- The refusal of a card state by check 6 (R46 step 3). -/
def CardState.refusesHold : CardState → Option Reason
  | .active => none
  | .frozen => some .cardFrozen
  | .closed => some .cardClosed
  | .lapsed => some .cardLapsed

/-- Checks 7 to 9 of R43 and the grant, on the card as check 6 has left it. -/
def State.grantOn (s : State) (st : Settings) (asker : Nat) (askTag : Option Nat) (c : Card) (asked least : Nat) :
    State × HoldAnswer :=
  if asked ≠ 0 ∧ Config.cardHoldsMax ≤ c.openHolds then (s, .refused .cardHoldsFull 0)
  else
    match grantOf asked least (c.balance - c.held) with
    | .probe v => (s, .probe v c.balance c.expiry)
    | .funds _ v => (s, .refused .funds v)
    | .granted g r _ =>
      match s.takeCell st with
      | none => (s, .refused .holdTableFull 0)
      | some s' =>
        (s'.makeHold st asker askTag c.serial asked least g,
          .granted s'.newHoldId g r (c.balance - (c.held + g)) c.balance c.expiry)

/-- Checks 6 to 9 of R43: card present and fit (R46), open holds, GRANT, cell; then the grant (R47) or the probe
answer (R48). -/
def State.requestHold (s : State) (st : Settings) (asker : Nat) (askTag : Option Nat) (home serial asked least : Nat) :
    State × HoldAnswer :=
  if home ≠ st.station then (s, .refused .unknownCard 0)
  else
    match s.findCard serial with
    | none => (s, .refused .unknownCard 0)
    | some _ =>
      let s := s.lapseIfDue serial
      match s.findCard serial with
      | none => (s, .refused .unknownCard 0)
      | some c =>
        if c.lapsePending s.cc.openCycle then (s, .refused .cardLapsed 0)
        else
          match c.state.refusesHold with
          | some r => (s, .refused r 0)
          | none => s.grantOn st asker askTag c asked least

/-- The REFUSE of a request of kind `kind` (R98 notes 4 and 5). -/
def refuseBody (kind : Nat) (r : Reason) (value : Nat) : Body := .refuse kind r value

/-- The answer to a peer's ASK (R43, R47, R48). -/
def HoldAnswer.body : HoldAnswer → Body
  | .refused r v => refuseBody kindAsk r v
  | .granted id g r v b e => .grant id g r v b e
  | .probe v b e => .grant 0 0 0 v b e

/-- The response to a local AUTHORIZE (R57). -/
def HoldAnswer.reply : HoldAnswer → Reply
  | .refused .funds v => ⟨.reason .funds, [.amount v]⟩
  | .refused r _ => .refuse r
  | .granted id g r v b e => ⟨.ok, [.num2 id, .amount g, .amount r, .amount v, .amount b, .cycle e]⟩
  | .probe v b e => ⟨.ok, [.num2 0, .amount v, .amount b, .cycle e]⟩

/-- The OPEN record with this asking station and ask tag (R44). -/
def State.openAsk (s : State) (asker tag : Nat) : Option Hold :=
  s.ht.holds.find? fun h => h.state == .held && h.asker == asker && h.askTag == some tag

/-- Balance, available and expiry of a card as it now stands; zero when its record has been purged (R52, R54, R69; for
a FREED or VOID OK given again, R56 and R59, zero is the model's choice, log 34). -/
def State.cardFigures (s : State) (n : Nat) : Nat × Nat × Option Nat :=
  match s.findCard n with
  | some c => (c.balance, c.balance - c.held, c.expiry)
  | none => (0, 0, none)

/-- The GRANT repeated for a resent ASK, built from the record and the card as it stands (R44). -/
def State.repeatGrant (s : State) (h : Hold) : Body :=
  let (b, v, e) := s.cardFigures h.serial
  .grant h.id h.amount (h.asked - h.amount) v b e

/-- An ASK from a peer: the nine checks of R43 in their order. A resend is answered by R44 on a lapse-pending card too
(log 32). -/
def State.serveAsk (s : State) (st : Settings) (asker tag home serial asked least : Nat) : State × Body :=
  if stopped s then (s, refuseBody kindAsk .stationStopped 0)
  else if s.lc.station = .draining then (s, refuseBody kindAsk .draining 0)
  else if (s.peer asker).standing = .barred ∨ (s.peer asker).standing = .recheck then
    (s, refuseBody kindAsk .peerBarred 0)
  else if (s.peer asker).tripped then (s, refuseBody kindAsk .exposure 0)
  else
    match (if asked = 0 then none else s.openAsk asker tag) with
    | some h =>
      if h.serial = serial ∧ h.asked = asked ∧ h.least = least then (s, s.repeatGrant h)
      else (s.protocolFault asker, refuseBody kindAsk .tagConflict 0)
    | none =>
      let (s', a) := s.requestHold st asker (some tag) home serial asked least
      (s', a.body)

/-- A local AUTHORIZE on an own card: checks 1, 2 and 6 to 9 (R57). -/
def State.authorizeOwn (s : State) (st : Settings) (serial asked least : Nat) : State × Reply :=
  if stopped s then (s, .refuse .stationStopped)
  else if s.lc.station = .draining then (s, .refuse .draining)
  else
    let (s', a) := s.requestHold st st.station none st.station serial asked least
    (s', a.reply)

/-! ### The end of a hold -/

/-- A record leaves OPEN: the counters, the end list and the peer held sum follow (R39, R40, R49). -/
def State.endHold (s : State) (st : Settings) (h : Hold) (f : Hold → Hold) : State :=
  let isPeer := h.asker != st.station
  let s1 := s.modHold h.id fun h => { f h with deadline := none }
  let s2 := { s1 with ht := { s1.ht with
      openCount := s1.ht.openCount - 1,
      peerOpenCount := if isPeer then s1.ht.peerOpenCount - 1 else s1.ht.peerOpenCount,
      endList := s1.ht.endList ++ [h.id] } }
  if isPeer then s2.modHeldSum h.asker fun x => x - h.amount else s2

/-- A peer hold's end re-forms the peer's exposure (R49). -/
def State.afterPeerEnd (s : State) (st : Settings) (h : Hold) : State :=
  if h.asker != st.station then s.formExposure st h.asker else s

/-- The end of an OPEN hold without capture: FREED or LAPSED (R50, R56). The card's lapse of R33 is not made yet. -/
def State.releaseHold (s : State) (st : Settings) (h : Hold) (goal : HoldState) : State :=
  ((s.modCard h.serial fun c => c.release h.amount).endHold st h fun h => { h with state := goal }).afterPeerEnd st h

/-- The trail with room for one more entry, its head removed when it is of a sealed cycle; none for lack of room
(R65). -/
def State.trailRoom (s : State) (st : Settings) : Option (List TrailEntry) :=
  if s.tr.entries.length < st.trailArea then some s.tr.entries
  else
    match s.tr.entries with
    | [] => none
    | e :: rest => if s.cc.isCurrent e.booking then none else some rest

/-- A new trail entry at the tail (R62, R64, R65). -/
def State.trailMake (s : State) (room : List TrailEntry) (serial redeemer : Nat) (tag : Option Nat) (x : Nat) : State :=
  { s with tr :=
    { entries := room ++
        [{ number := s.tr.nextNumber, serial := serial, redeemer := redeemer, captureTag := tag, captured := x,
           refunded := 0, booking := s.cc.openCycle, lastCredit := none }],
      nextNumber := nextInRing Config.serialMax s.tr.nextNumber } }

/-- A hold record after its capture of `x` (R53 step 3). -/
def Hold.capture (h : Hold) (tag : Option Nat) (x trail openCycle : Nat) : Hold :=
  { h with state := .captured, captureTag := tag, captured := some x, trailNo := some trail, booking := some openCycle }

/-- The capture of `x` from an OPEN hold, with its trail entry in `room`, the card's change and the booking: L of the
peer, or U for a local hold (R53 step 3, R55). The exposure is formed and the comparator evaluated once, after held sum
and L have both changed (R49, R125; log 33). The card's lapse of R33 is not made yet. -/
def State.captureHold (s : State) (st : Settings) (h : Hold) (room : List TrailEntry) (tag : Option Nat) (x : Nat) : State :=
  let number := s.tr.nextNumber
  let o := s.cc.openCycle
  let isPeer := h.asker != st.station
  let s1 := s.trailMake room h.serial h.asker tag x
  let s2 := s1.cardCapture h.serial x h.amount (!isPeer)
  let s3 := s2.endHold st h fun h => h.capture tag x number o
  if isPeer then s3.bookLiability st h.asker x else s3

/-- The record that a request names by hold id, asking station and serial (R52). -/
def State.matchHold (s : State) (id asker serial : Nat) : Option Hold :=
  s.ht.holds.find? fun h => h.id == id && h.asker == asker && h.serial == serial

/-- What a capture comes to. -/
inductive CaptureAnswer where
  | refused (r : Reason)
  | taken (trail captured released booking balance : Nat)
  deriving DecidableEq, Repr

/-- The capture of an OPEN record: the checks of R53 and the capture, with the card's lapse after it (R33). The
balance answered is the balance before that lapse. -/
def State.captureOpen (s : State) (st : Settings) (h : Hold) (tag : Option Nat) (x : Nat) : State × CaptureAnswer :=
  if x = 0 ∨ h.amount < x then (s, .refused .amount)
  else
    match s.trailRoom st with
    | none => (s, .refused .trailFull)
    | some room =>
      let s' := s.captureHold st h room tag x
      (s'.lapseIfDue h.serial,
        .taken s.tr.nextNumber x (h.amount - x) s.cc.openCycle (s'.cardFigures h.serial).1)

/-- The trail entry of a resent TAKE: the one nearest the tail with this redeeming station, tag and serial (R67). -/
def State.searchTrail (s : State) (redeemer tag serial : Nat) : Option TrailEntry :=
  s.tr.entries.reverse.find? fun e => e.redeemer == redeemer && e.captureTag == some tag && e.serial == serial

/-- A TAKE from a peer (R52 to R54). An answer that gives the card's balance again makes the access test of R32
first (log 9); a refusal HOLD_ENDED or UNKNOWN_HOLD makes none (log 39). -/
def State.serveTake (s : State) (st : Settings) (asker tag id serial x : Nat) : State × CaptureAnswer :=
  match s.matchHold id asker serial with
  | some h =>
    match h.state with
    | .held => s.captureOpen st h (some tag) x
    | .captured =>
      if h.captureTag = some tag then
        let s := s.lapseIfDue serial
        (s, .taken (h.trailNo.getD 0) (h.captured.getD 0) (h.amount - h.captured.getD 0) (h.booking.getD 0)
          (s.cardFigures serial).1)
      else (s, .refused .holdEnded)
    | .freed => (s, .refused .holdEnded)
    | .lapsed => (s, .refused .holdEnded)
  | none =>
    match s.searchTrail asker tag serial with
    | some e =>
      let s := s.lapseIfDue serial
      (s, .taken e.number e.captured 0 e.booking (s.cardFigures serial).1)
    | none => (s, .refused .unknownHold)

/-- The answer to a peer's TAKE (R53, R54). -/
def CaptureAnswer.body : CaptureAnswer → Body
  | .refused r => refuseBody kindTake r 0
  | .taken n x r k b => .taken n x r k b

/-- The response to a local CAPTURE (R58). -/
def CaptureAnswer.reply : CaptureAnswer → Reply
  | .refused r => .refuse r
  | .taken n x r k b => ⟨.ok, [.digits8 n, .amount x, .amount r, .cycle (some k), .amount b]⟩

/-- A local CAPTURE on an own card (R58); a refusal HOLD_ENDED or UNKNOWN_HOLD makes no access test (log 39). -/
def State.captureOwn (s : State) (st : Settings) (serial id x : Nat) : State × CaptureAnswer :=
  match s.matchHold id st.station serial with
  | none => (s, .refused .unknownHold)
  | some h => if h.state = .held then s.captureOpen st h none x else (s, .refused .holdEnded)

/-- What a release comes to. -/
inductive FreeAnswer where
  | refused (r : Reason)
  | freed (released balance available : Nat)
  deriving DecidableEq, Repr

/-- A FREE or VOID by the state of its record (R56, R59). Balance and available are given before the lapse of R33 that
may follow a release; an answer given again makes the access test of R32 first (log 9), and gives 0.00 for a card that
has been purged (log 34); a refusal HOLD_ENDED or UNKNOWN_HOLD makes no access test (log 39). -/
def State.freeHold (s : State) (st : Settings) (asker id serial : Nat) : State × FreeAnswer :=
  match s.matchHold id asker serial with
  | none => (s, .refused .unknownHold)
  | some h =>
    match h.state with
    | .held =>
      let s' := s.releaseHold st h .freed
      let (b, v, _) := s'.cardFigures serial
      (s'.lapseIfDue serial, .freed h.amount b v)
    | .freed =>
      let s := s.lapseIfDue serial
      let (b, v, _) := s.cardFigures serial
      (s, .freed h.amount b v)
    | .lapsed =>
      let s := s.lapseIfDue serial
      let (b, v, _) := s.cardFigures serial
      (s, .freed 0 b v)
    | .captured => (s, .refused .holdEnded)

/-- The answer to a peer's FREE (R56). -/
def FreeAnswer.body : FreeAnswer → Body
  | .refused r => refuseBody kindFree r 0
  | .freed x b v => .freed x b v

/-- The response to a local VOID (R59). -/
def FreeAnswer.reply : FreeAnswer → Reply
  | .refused r => .refuse r
  | .freed x b v => ⟨.ok, [.amount x, .amount b, .amount v]⟩

/-- The deadline of an OPEN hold is reached: it lapses, and the card after it when due (R50, R33). -/
def State.holdDeadline (s : State) (st : Settings) (id : Nat) : State :=
  match s.findHold id with
  | none => s
  | some h =>
    match h.state, h.deadline with
    | .held, some d => if d ≤ s.now then (s.releaseHold st h .lapsed).lapseIfDue h.serial else s
    | _, _ => s

/-! ### Refunds -/

/-- What a refund comes to. -/
inductive RefundAnswer where
  | refused (r : Reason) (value : Nat)
  | credited (trail amount remaining booking balance : Nat)
  deriving DecidableEq, Repr

/-- A trail entry after a refund of `f`; a CREDIT leaves its tag, amount and cycle (R71), a local REFUND does not
(R73). -/
def TrailEntry.refund (e : TrailEntry) (f : Nat) (tag : Option Nat) (openCycle : Nat) : TrailEntry :=
  { e with refunded := e.refunded + f,
           lastCredit := match tag with | some t => some ⟨t, f, openCycle⟩ | none => e.lastCredit }

/-- The refund is applied at the entry and the card together, and booked: L of the peer (R71, R72), or U for a local
refund (R73). -/
def State.applyRefund (s : State) (st : Settings) (e : TrailEntry) (f : Nat) (tag : Option Nat) : State :=
  let o := s.cc.openCycle
  let isPeer := e.redeemer != st.station
  let s1 := s.modTrail e.number fun e => e.refund f tag o
  let s2 := s1.cardRefund e.serial f (!isPeer)
  if isPeer then s2.bookLiability st e.redeemer (-(f : Int)) else s2

/-- Checks 5 to 7 of R68 and the refund. A due card lapses at the access test (R32), before the sweep too (log 35). -/
def State.refundOn (s : State) (st : Settings) (e : TrailEntry) (f : Nat) (tag : Option Nat) : State × RefundAnswer :=
  if f = 0 ∨ e.captured - e.refunded < f then (s, .refused .overRefund (e.captured - e.refunded))
  else
    match s.findCard e.serial with
    | none => (s, .refused .unknownCard 0)
    | some _ =>
      let s := s.lapseIfDue e.serial
      match s.findCard e.serial with
      | none => (s, .refused .unknownCard 0)
      | some c =>
        if c.lapsePending s.cc.openCycle then (s, .refused .cardLapsed 0)
        else if c.state = .closed then (s, .refused .cardClosed 0)
        else if c.state = .lapsed then (s, .refused .cardLapsed 0)
        else if st.cardCeiling - c.balance < f then (s, .refused .ceiling 0)
        else
          (s.applyRefund st e f tag,
            .credited e.number f (e.captured - (e.refunded + f)) s.cc.openCycle (c.balance + f))

/-- A CREDIT from a peer: the checks of R68 in their order. A resend is answered by R69 on a lapse pending card too
(log 41). -/
def State.serveCredit (s : State) (st : Settings) (source tag serial number f : Nat) : State × RefundAnswer :=
  match s.findTrail number with
  | none => (s, .refused .unknownCapture 0)
  | some e =>
    if e.redeemer ≠ source then (s, .refused .notRedeemer 0)
    else if e.serial ≠ serial then (s, .refused .unknownCapture 0)
    else
      match e.lastCredit with
      | some k =>
        if k.tag = tag ∧ k.amount = f then
          let s := s.lapseIfDue serial
          (s, .credited e.number k.amount (e.captured - e.refunded) k.cycle (s.cardFigures serial).1)
        else s.refundOn st e f (some tag)
      | none => s.refundOn st e f (some tag)

/-- A local REFUND on an own card: checks 1, 2, 3, 5, 6 and 7 of R68 (R73). -/
def State.refundOwn (s : State) (st : Settings) (serial number f : Nat) : State × RefundAnswer :=
  match s.findTrail number with
  | none => (s, .refused .unknownCapture 0)
  | some e =>
    if e.redeemer ≠ st.station then (s, .refused .notRedeemer 0)
    else if e.serial ≠ serial then (s, .refused .unknownCapture 0)
    else s.refundOn st e f none

/-- The answer to a peer's CREDIT (R68, R71). -/
def RefundAnswer.body : RefundAnswer → Body
  | .refused r v => refuseBody kindCredit r v
  | .credited n f m k b => .credited n f m k b

/-- The response to a local REFUND (R73). -/
def RefundAnswer.reply : RefundAnswer → Reply
  | .refused .overRefund v => ⟨.reason .overRefund, [.amount v]⟩
  | .refused r _ => .refuse r
  | .credited n f m k b => ⟨.ok, [.digits8 n, .amount f, .amount m, .cycle (some k), .amount b]⟩

end Sys2Proof.Machine
end

