-- ==== Sys2Proof/Machine/Exchanges.lean ====
section
/-! DEFINITION. The Exchange Table (chapter 6): admission, timeouts and uncertain outcomes, answers and orphans, the
asking-side bookings, and the results they leave. -/

namespace Sys2Proof.Machine

/-- The tags that a new exchange may not take (R102). -/
def ExchangeTable.takenTags (x : ExchangeTable) : List Nat := x.exchanges.map Exchange.tag ++ x.ended.map EndedEntry.tag

/-- The tag of a new exchange (R102). -/
def ExchangeTable.newTag (x : ExchangeTable) : Nat :=
  firstFree Config.idMax x.takenTags (x.takenTags.length + 1) x.nextTag

/-- A new QUEUED exchange in the last place of admission order (R102, R104). -/
def State.addExchange (s : State) (params : ExParams) (home serial : Nat) (token : Option Token) : State :=
  let tag := s.xt.newTag
  { s with xt := { s.xt with
      exchanges := s.xt.exchanges ++
        [{ tag := tag, params := params, internal := token.isNone, home := home, serial := serial, token := token,
           state := .queued, sends := 0, replyDeadline := none, resendWanted := false, result := none }],
      nextTag := nextInRing Config.idMax tag } }

/-- The hold id an exchange names. -/
def ExParams.holdId? : ExParams → Option Nat
  | .capture i _ => some i
  | .void i => some i
  | _ => none

/-- The trail number an exchange names. -/
def ExParams.trail? : ExParams → Option Nat
  | .refund n _ => some n
  | _ => none

/-- A claim on the same thing is in flight (R104 check 6). -/
def State.claimed (s : State) (home : Nat) (p : ExParams) : Bool :=
  s.xt.exchanges.any fun e =>
    e.home == home &&
      ((p.holdId?.isSome && e.params.holdId? == p.holdId?) || (p.trail?.isSome && e.params.trail? == p.trail?))

/-- The parameters cannot form a request the home station would serve (R103). -/
def ExParams.unfit : ExParams → Option Reason
  | .hold .. => none
  | .probe => none
  | .capture i a => if a = 0 then some .amount else if i = 0 then some .unknownHold else none
  | .void i => if i = 0 then some .unknownHold else none
  | .refund n a => if a = 0 then some .amount else if n = 0 then some .unknownCapture else none

/-- HOLD and PROBE make or read a hold; CAPTURE, VOID and REFUND settle (R104 checks 1 and 5). -/
def ExParams.isNew : ExParams → Bool
  | .hold .. | .probe => true
  | _ => false

/-- The station state admits the kind (R104 check 1, R90). -/
def StationState.admits (st : StationState) (isNew : Bool) : Bool :=
  st == .active || (st == .draining && !isNew)

/-- The first check of R104 that fails. -/
def State.admissionStatus (s : State) (home : Nat) (p : ExParams) : Option Status :=
  if !s.lc.station.admits p.isNew then some .notActive
  else if (s.peer home).presence = .unknown then some .homeUnknown
  else if (s.peer home).presence = .absent then some .homeAbsent
  else if (s.peer home).standing = .barred ∨ (s.peer home).standing = .recheck then some (.reason .peerBarred)
  else if p.isNew && stopped s then some (.reason .stationStopped)
  else if !p.isNew && s.claimed home p then some .busy
  else if Config.exchangesMax ≤ s.xt.exchanges.length then some .exchangesFull
  else none

/-- A till command on a foreign card becomes an exchange, answered PENDING with its tag, or is refused (R103, R104). -/
def State.openExchange (s : State) (p : ExParams) (home serial : Nat) (token : Token) : State × Reply :=
  match p.unfit with
  | some r => (s, .refuse r)
  | none =>
    match s.admissionStatus home p with
    | some st => (s, .plain st)
    | none => ((s.addExchange p home serial (some token)).fillRequests, ⟨.waiting, [.num2 s.xt.newTag]⟩)

/-! ### Endings -/

/-- An entry joins the ended list; a 65th removes the head (R101). -/
def State.joinEnded (s : State) (e : EndedEntry) : State :=
  { s with xt := { s.xt with ended := keepLast Config.endedMax (s.xt.ended ++ [e]) } }

/-- The ended-list entry of an exchange, with the hold id and trail number its answer carried (R101). -/
def Exchange.endedEntry (e : Exchange) (ending : Ending) (gotHold gotTrail : Option Nat) : EndedEntry :=
  { home := e.home, tag := e.tag, kind := e.params.kind, internal := e.internal, serial := e.serial,
    holdId := gotHold <|> e.params.holdId?, trailNo := gotTrail <|> e.params.trail?, ending := ending }

/-- The result record of an exchange (R116). -/
def Exchange.resultRec (e : Exchange) (resolved : Bool) (o : ExOutcome) : ResultRec :=
  .exchange e.tag (e.token.getD 0) e.params e.home e.serial resolved o

/-- The exchange becomes DONE with a pending result, or leaves the table when it is internal (R112, R117). A result that
replaces an UNSURE one still pending is ordered by the moment of the replacement (log 36). -/
def State.finishExchange (s : State) (e : Exchange) (resolved : Bool) (o : ExOutcome) : State :=
  if e.internal then { s with xt := { s.xt with exchanges := s.xt.exchanges.filter fun x => x.tag != e.tag } }
  else
    { s.modExchange e.tag fun x => { x with
        state := .done, replyDeadline := none, resendWanted := false,
        result := some ⟨e.resultRec resolved o, s.seq⟩ } with seq := s.seq + 1 }

/-- The result is RESOLVED when the till has already been given UNSURE (R112). -/
def Exchange.resolves (e : Exchange) : Bool := e.state == .unsure && e.result.isNone

/-- A matching answer ends its exchange (R112): DONE, its frame withdrawn, an ended-list entry, its result offered,
and the room in the request queue filled. -/
def State.endByAnswer (s : State) (e : Exchange) (ending : Ending) (gotHold gotTrail : Option Nat) (o : ExOutcome) : State :=
  ((((s.finishExchange e e.resolves o).joinEnded (e.endedEntry ending gotHold gotTrail)).withdrawFrame e.tag).fillResults)
    |>.fillRequests

/-- An exchange is ended or set aside without an answer: HOLD, PROBE and VOID end NO_ANSWER, CAPTURE and REFUND become
UNSURE (R108 at 4 sends, R110, R118). -/
def State.setAside (s : State) (e : Exchange) : State :=
  match e.params with
  | .capture .. | .refund .. =>
    { s.modExchange e.tag fun x => { x with
        state := .unsure, replyDeadline := none, resendWanted := false,
        result := some ⟨e.resultRec false (.unsure e.sends), s.seq⟩ } with seq := s.seq + 1 }
  | _ => (s.finishExchange e false .noAnswer).joinEnded (e.endedEntry .noAnswer none none)

/-- The exchange is in QUEUED or WAITING. -/
def Exchange.underWay (e : Exchange) : Bool := e.state == .queued || e.state == .waiting

/-- Every exchange in QUEUED or WAITING is ended or set aside, in admission order, and no resend is wanted (R110,
R118). -/
def State.setAsideAll (s : State) : State :=
  let s' := (s.xt.exchanges.filter Exchange.underWay).foldl State.setAside s
  { s' with xt := { s'.xt with exchanges := s'.xt.exchanges.map fun e => { e with resendWanted := false } } }

/-- The LC's report on a frame of an exchange, sent whole or discarded at moment `m`, sets the reply deadline of a
WAITING exchange (R107). -/
def State.reportFrame (s : State) (tag : Nat) (m : Moment) : State :=
  s.modExchange tag fun e => if e.state == .waiting then { e with replyDeadline := some (m + Config.replySpan) } else e

/-- The reply deadline of a WAITING exchange is reached (R108). -/
def State.replyTimeout (s : State) (tag : Nat) : State :=
  match s.findExchange tag with
  | none => s
  | some e =>
    match e.state, e.replyDeadline with
    | .waiting, some d =>
      if d ≤ s.now then
        if e.sends < Config.sendsMax then
          (s.modExchange tag fun x => { x with state := .queued, replyDeadline := none }).fillRequests
        else (s.setAside e).fillResults
      else s
    | _, _ => s

/-- A BEACON from `home` sets resend wanted on its UNSURE exchanges that have no frame in the request queue; they are
then offered (R109). -/
def State.wantResends (s : State) (home : Nat) : State :=
  { s with xt := { s.xt with exchanges := s.xt.exchanges.map fun (e : Exchange) =>
      if e.home == home && e.state == .unsure && !s.frameStands e.tag then { e with resendWanted := true } else e }
    : State }.fillRequests

/-! ### Answers -/

/-- The answer fits the kind of the exchange (R111). -/
def ExParams.fits : ExParams → Body → Bool
  | .hold .., .grant i .. => i != 0
  | .probe, .grant i .. => i == 0
  | .capture .., .taken .. => true
  | .void .., .freed .. => true
  | .refund .., .credited .. => true
  | .hold .., .refuse k .. => k == kindAsk
  | .probe, .refuse k .. => k == kindAsk
  | .capture .., .refuse k .. => k == kindTake
  | .void .., .refuse k .. => k == kindFree
  | .refund .., .refuse k .. => k == kindCredit
  | _, _ => false

/-- The exchange an answer matches (R111). -/
def State.matchAnswer (s : State) (source tag : Nat) (b : Body) : Option Exchange :=
  s.xt.exchanges.find? fun e =>
    e.home == source && e.tag == tag &&
      ((e.state == .queued && decide (0 < e.sends)) || e.state == .waiting || e.state == .unsure) && e.params.fits b

/-- The latest ended-list entry with this home station and tag (R113). -/
def State.latestEnded (s : State) (home tag : Nat) : Option EndedEntry :=
  s.xt.ended.reverse.find? fun e => e.home == home && e.tag == tag

/-- The answer repeats the one that made the entry (R113). -/
def EndedEntry.repeats (e : EndedEntry) : Body → Bool
  | .grant i .. => e.ending == .grant && e.holdId == some i
  | .taken n .. => e.ending == .taken && e.trailNo == some n
  | .freed .. => e.ending == .freed
  | .credited n .. => e.ending == .credited && e.trailNo == some n
  | .refuse .. => e.ending == .refuse
  | _ => false

/-- The answer is a repeat (R113). -/
def State.isRepeat (s : State) (source tag : Nat) (b : Body) : Bool :=
  match s.latestEnded source tag with
  | some e => e.repeats b
  | none => false

/-- The ended-list entry of kind HOLD for an orphan GRANT (R114). -/
def State.endedHold (s : State) (home tag : Nat) : Option EndedEntry :=
  s.xt.ended.reverse.find? fun e => e.home == home && e.tag == tag && e.kind == .hold

/-- An internal VOID for this hold stands in the table or in the ended list (R114). -/
def State.voidStands (s : State) (home id : Nat) : Bool :=
  (s.xt.exchanges.any fun e => e.internal && e.home == home && e.params == .void id) ||
    (s.xt.ended.any fun e => e.internal && e.home == home && e.kind == .void && e.holdId == some id)

/-- An orphan GRANT with a hold id: an internal VOID is made for its hold (R114). -/
def State.orphanGrant (s : State) (source tag id : Nat) : State :=
  if id = 0 then s
  else
    match s.endedHold source tag with
    | none => s
    | some e =>
      if s.voidStands source id || decide (Config.exchangesMax ≤ s.xt.exchanges.length) then s
      else (s.addExchange (.void id) source e.serial none).fillRequests

/-- An answer that matches no exchange and is no repeat (R114). -/
def State.orphan (s : State) (source tag : Nat) : Body → State
  | .grant i .. => s.orphanGrant source tag i
  | .taken _ x _ k _ => s.bookAnswer source x k true true
  | .credited _ x _ k _ => s.bookAnswer source x k false true
  | _ => s

/-- A matching answer is taken (R112, R115, R116). -/
def State.takeAnswer (s : State) (source : Nat) (e : Exchange) : Body → State
  | .grant i g r v b x =>
    s.endByAnswer e .grant (some i) none (.ok (if i = 0 then .probe v b x else .hold i g r v b x))
  | .taken n x r k b =>
    (s.bookAnswer source x k true false).endByAnswer e .taken none (some n)
      (.ok (.capture (e.params.holdId?.getD 0) n x r k b))
  | .freed x b v => s.endByAnswer e .freed none none (.ok (.void (e.params.holdId?.getD 0) x b v))
  | .credited n x m k b =>
    (s.bookAnswer source x k false false).endByAnswer e .credited none (some n) (.ok (.refund n x m k b))
  | .refuse _ r v => s.endByAnswer e .refuse none none (.refused r v)
  | _ => s

/-- An answer addressed to this station (R111 to R114). -/
def State.serveAnswer (s : State) (source tag : Nat) (b : Body) : State :=
  match s.matchAnswer source tag b with
  | some e => s.takeAnswer source e b
  | none => if s.isRepeat source tag b then s else s.orphan source tag b

end Sys2Proof.Machine
end

