-- ==== Sys2Proof/Machine/Statements.lean ====
section
/-! DEFINITION. The Statement Unit (chapter 9): building a statement, the two slots, REPORT, and the reading of the
oldest statement. -/

namespace Sys2Proof.Machine

/-! ### Building -/

/-- Some figure of a line is non-zero or marked (R158). -/
def Figures.shows (f : Figures) : Bool :=
  f.r.val != 0 || f.r.mark || f.l.val != 0 || f.l.mark || f.k.n != 0 || f.k.mark || f.lateCount.n != 0 ||
    f.lateCount.mark || f.lateAmount.val != 0 || f.lateAmount.mark

/-- Some figure of a line carries a mark (R161). -/
def Figures.marked (f : Figures) : Bool := f.r.mark || f.l.mark || f.k.mark || f.lateCount.mark || f.lateAmount.mark

/-- Some own total carries a mark (R161). -/
def OwnTotals.marked (o : OwnTotals) : Bool := o.s.mark || o.u.mark || o.x.mark || o.q.mark

/-- The sum of counts in their order, and whether a step of it passed 999,999 (R160 step 3). -/
def countSum (ks : List Count) : Count × Bool :=
  ks.foldl (fun a k => (a.1.plus k, a.2 || a.1.plusSat k)) (Count.zero, false)

/-- What a statement is built from: its set and the terms that go with it (R157). -/
structure StatementSource where
  kind : StatementKind
  cycle : Nat
  forced : Bool
  rate : Rate
  own : OwnTotals
  entries : List PeerLine
  deriving DecidableEq, Repr

/-- The chain of G (R160 step 1). -/
def StatementSource.gross (x : StatementSource) : Chain := chainSum (x.entries.map fun e => e.figures.r)
/-- The chain of Λ (R160 step 2). -/
def StatementSource.liability (x : StatementSource) : Chain := chainSum (x.entries.map fun e => e.figures.l)
/-- K and its report of saturation (R160 step 3). -/
def StatementSource.captures (x : StatementSource) : Count × Bool := countSum (x.entries.map fun e => e.figures.k)
/-- C (R160 step 4). -/
def StatementSource.fee (x : StatementSource) : Total :=
  commission x.gross.total x.liability.total x.captures.1 x.rate
/-- N (R160 step 4). -/
def StatementSource.net (x : StatementSource) : Total := netOf x.gross.total x.fee x.liability.total
/-- The peer lines (R158). -/
def StatementSource.lines (x : StatementSource) : List PeerLine := x.entries.filter fun e => e.figures.shows

/-- A step of the building saturates (R161). -/
def StatementSource.saturates (x : StatementSource) : Bool :=
  x.gross.stuck || x.liability.stuck || x.captures.2 || netSat x.gross.total x.fee x.liability.total

/-- The saturated flag (R161). -/
def StatementSource.saturatedFlag (x : StatementSource) : Bool :=
  x.lines.any (fun l => l.figures.marked) || x.own.marked || x.gross.mark || x.captures.1.mark || x.fee.mark ||
    x.liability.mark || x.net.mark || x.saturates

/-- The direction of a net (R157). -/
def directionOf (n : Total) : Direction := if n.val < 0 then .stationPays else .mallPays

/-- The amount due of a net: its magnitude, and for a marked net the limit 9,999,999,999.99 (R157, note 3; for a net
that is marked below the limit log 44). -/
def amountDueOf (n : Total) : Nat := if n.mark then Config.amountMax else n.val.natAbs

/-- The statement with a number, built as one operation (R160). -/
def StatementSource.build (x : StatementSource) (number : Nat) : Statement :=
  { kind := x.kind, number := number, cycle := x.cycle, forced := x.forced, saturated := x.saturatedFlag,
    rate := x.rate, own := x.own, g := x.gross.total, k := x.captures.1, c := x.fee, lam := x.liability.total,
    n := x.net, direction := directionOf x.net, amountDue := amountDueOf x.net, lines := x.lines }

/-- The used entries: every one but the own number's (R119). -/
def State.usedPeers (s : State) (st : Settings) : List PeerEntry := s.pt.filter fun e => e.peer != st.station

/-- The source of a SEAL statement: the sealing set (R157 note 1, R160). -/
def State.sealSource (s : State) (st : Settings) (ss : SealingSet) : StatementSource :=
  { kind := .sealed, cycle := ss.cycle, forced := ss.forced, rate := ss.rate, own := s.ct.sealOwn.getD .zero,
    entries := (s.usedPeers st).map fun e => ⟨e.peer, e.sealF.getD .zero⟩ }

/-- The source of a REPORT statement: the open set with the active rate (R160, R163). -/
def State.reportSource (s : State) (st : Settings) : StatementSource :=
  { kind := .report, cycle := s.cc.openCycle, forced := false, rate := s.cc.active.getD ⟨0, 0⟩, own := s.ct.openOwn,
    entries := (s.usedPeers st).map fun e => ⟨e.peer, e.openF⟩ }

/-! ### The slots -/

/-- The slot holds a statement (R159). -/
def StatementUnit.holds (su : StatementUnit) (no : SlotNo) : Bool := su.slots.any fun x => x.no == no

/-- The slot granted to a seal or a REPORT: an EMPTY one, slot 1 when both are; else the slot of the oldest REPORT;
else none (R162, R163). -/
def StatementUnit.grantSlot (su : StatementUnit) : Option SlotNo :=
  if !su.holds .one then some .one
  else if !su.holds .two then some .two
  else (su.slots.find? fun x => x.statement.kind == .report).map Slot.no

/-- A statement placed in a slot becomes the newest; what the slot held is discarded, and the read position returns
to 0 when that was the oldest (R159, R166). -/
def StatementUnit.place (su : StatementUnit) (no : SlotNo) (x : Statement) : StatementUnit :=
  { su with
    slots := (su.slots.filter fun y => y.no != no) ++ [⟨no, x⟩],
    nextNumber := nextInRing Config.idMax su.nextNumber,
    readPos := match su.slots.head? with | some y => if y.no == no then 0 else su.readPos | none => su.readPos }

/-- A statement is built from `x` and placed in slot `no`; a step that saturates is reported (R159, R160, R6). -/
def State.placeStatement (s : State) (no : SlotNo) (x : StatementSource) : State :=
  { s with su := s.su.place no (x.build s.su.nextNumber) : State }.raiseSat x.saturates

/-- REPORT (R163, R164). -/
def State.report (s : State) (st : Settings) : State × Reply :=
  match s.su.grantSlot with
  | none => ({ s with su := { s.su with reportLost := true } }, .plain .slotsFull)
  | some no =>
    (s.placeStatement no (s.reportSource st), ⟨.ok, [.num2 s.su.nextNumber, .cycle (some s.cc.openCycle)]⟩)

/-! ### Reading -/

/-- The part of a statement at an index: the header, or a peer line (R165). -/
def Statement.part (x : Statement) (k : Nat) : List Value :=
  match k with
  | 0 => x.headerValues
  | j + 1 => match x.lines[j]? with | some l => l.values | none => []

/-- The values of READ_STATEMENT for the oldest statement (R165). -/
def Statement.partValues (x : Statement) (k : Nat) : List Value := [.num2 x.number, .num2 k] ++ x.part k

/-- The Statement Unit after a read of the part at the read position that does not complete (R165). -/
def StatementUnit.advance (su : StatementUnit) : StatementUnit := { su with readPos := su.readPos + 1 }

/-- The Statement Unit after a read that completes: the slot is EMPTY, the read position 0 and REPORT_LOST false
(R164, R165). -/
def StatementUnit.freeOldest (su : StatementUnit) : StatementUnit :=
  { su with slots := su.slots.tail, readPos := 0, reportLost := false }

end Sys2Proof.Machine
end

