-- ==== Sys2Proof/Machine/Cycles.lean ====
section
/-! DEFINITION. The Cycle Controller (chapter 8): closes, the seal window, the sweep's end, seals and their
completion, closes asked for, and the rate schedule. -/

namespace Sys2Proof.Machine

/-- One change to every used entry (R119). -/
def State.modUsed (s : State) (st : Settings) (f : PeerEntry → PeerEntry) : State :=
  s.modPeers fun e => if e.peer == st.station then e else f e

/-! ### Close -/

/-- An entry at a close: the open figures become the sealing figures, the protocol count 0 (R124). -/
def PeerEntry.close (e : PeerEntry) : PeerEntry := { e with sealF := some e.openF, openF := .zero, protocolCount := 0 }

/-- The Card Table at a close: its open totals become the sealing ones and the cursor is set to 0 (R30, R34). -/
def CardTable.close (ct : CardTable) : CardTable :=
  { ct with sealOwn := some ct.openOwn, openOwn := .zero, cursor := some 0 }

/-- The rate schedule at a close to `t`: the due entry with the greatest effective cycle becomes active, and every
due entry leaves the schedule, which is kept in ascending order (R154). -/
def Cycles.applySchedule (cc : Cycles) (t : Nat) : Cycles :=
  { cc with
    active := match (cc.schedule.filter fun e => decide (e.effective ≤ t)).getLast? with
      | some e => some e.rate
      | none => cc.active,
    schedule := cc.schedule.filter fun e => decide (t < e.effective) }

/-- The Cycle Controller at a close to `t`, with the window running out at `windowEnd` (R144 steps 1, 4 to 6). -/
def Cycles.close (cc : Cycles) (t : Nat) (windowEnd : Moment) : Cycles :=
  { cc with
    sealing := some ⟨cc.openCycle, cc.active.getD ⟨0, 0⟩, false⟩, openCycle := t, phase := .sweeping,
    sealTimer := some windowEnd, pendingTarget := none : Cycles }.applySchedule t

/-- A seal window that starts now (R140). -/
def State.windowEnd (s : State) (st : Settings) : Moment := s.now + st.sealWindow * 1000000

/-- A sweep over an empty table ends at its start; the window runs and no target is pending, so the phase becomes
SEALING (R34, R139). -/
def State.sweepOfNothing (s : State) : State :=
  if s.ct.cards.isEmpty then { s.setCursor none with cc := { s.cc with phase := .sealing } } else s

/-- A close with target `t`, in one step (R144). The close answers whatever target was pending (R143). -/
def State.closeAt (s : State) (st : Settings) (t : Nat) : State :=
  let s1 := s.modUsed st PeerEntry.close
  let s2 : State := { s1 with ct := s1.ct.close, cc := s1.cc.close t (s1.windowEnd st) }
  relatch (s2.formExposures st).sweepOfNothing

/-! ### Seal -/

/-- A lifetime figure that calls for a TALLY (R148 step 3). -/
def Total.owes (t : Total) : Bool := t.val != 0 || t.mark

/-- An entry at the completion of a seal of cycle `c`: lifeR_s, lifeL_s, s_last and tally owed, and the sealing
figures removed (R148 steps 2 to 4, R149). -/
def PeerEntry.sealAt (e : PeerEntry) (c : Nat) : PeerEntry :=
  { e with
    lifeRs := e.lifeR.diff e.openF.r, lifeLs := e.lifeL.diff e.openF.l, sLast := c,
    tallyOwed := (e.lifeR.diff e.openF.r).owes || (e.lifeL.diff e.openF.l).owes, sealF := none }

/-- The subtractions of R149 report saturation. -/
def PeerEntry.sealSat (e : PeerEntry) : Bool := e.lifeR.diffSat e.openF.r || e.lifeL.diffSat e.openF.l

/-- The Cycle Controller at the completion of a seal (R148 steps 4 and 7). -/
def Cycles.sealed (cc : Cycles) : Cycles := { cc with sealing := none, phase := .steady, sealTimer := none }

/-- Every used peer is asked for the TALLY it is owed, in ascending number (R132, R148). -/
def State.askTallies (s : State) (st : Settings) : State :=
  ((s.usedPeers st).map PeerEntry.peer).foldl State.askTally s

/-- Every pending tally is tested again (R148 step 5, R152). -/
def State.retestTallies (s : State) (st : Settings) : State :=
  (s.modUsed st fun e => e.retestTally s.cc).raiseSat ((s.usedPeers st).any fun e => e.retestTallySat s.cc)

/-- The completion of the seal of set `ss` into slot `no` (R148), without the close that may follow. -/
def State.completeSeal (s : State) (st : Settings) (ss : SealingSet) (no : SlotNo) : State :=
  let s1 := s.placeStatement no (s.sealSource st ss)
  let s2 := (s1.modUsed st fun e => e.sealAt ss.cycle).raiseSat ((s1.usedPeers st).any PeerEntry.sealSat)
  let s3 : State := { s2 with ct := { s2.ct with sealOwn := none }, cc := s2.cc.sealed }
  (relatch ((s3.formExposures st).retestTallies st)).askTallies st

/-- A close held as the pending target is made when no sealing set stands (R143). -/
def State.pendingClose (s : State) (st : Settings) : State :=
  match s.cc.phase, s.cc.pendingTarget with
  | .steady, some t => s.closeAt st t
  | _, _ => s

/-- The seal of the sealing set is made, forced or not: a slot is asked for; when granted, the seal completes and a
pending close follows; when not, the phase becomes DEFERRED (R143, R146). -/
def State.makeSeal (s : State) (st : Settings) (forced : Bool) : State :=
  match s.cc.sealing with
  | none => s
  | some x =>
    let ss : SealingSet := { x with forced := forced }
    let s1 : State := { s with cc := { s.cc with sealing := some ss, sealTimer := none } }
    match s1.su.grantSlot with
    | some no => (s1.completeSeal st ss no).pendingClose st
    | none => { s1 with cc := { s1.cc with phase := .deferred } }

/-- The deferred seal completes when a slot is free, and a pending close follows (R147, R143). -/
def State.completeDeferred (s : State) (st : Settings) : State :=
  match s.cc.phase, s.cc.sealing, s.su.grantSlot with
  | .deferred, some ss, some no => (s.completeSeal st ss no).pendingClose st
  | _, _, _ => s

/-- The sweep ends: the cursor is absent; the seal is made when the window has expired or a target is pending, forced
when the window still runs; else the phase becomes SEALING (R34, R139, R143, R146). -/
def State.sweepEnd (s : State) (st : Settings) : State :=
  let s := s.setCursor none
  if s.cc.pendingTarget.isSome || s.cc.sealTimer.isNone then s.makeSeal st s.cc.sealTimer.isSome
  else { s with cc := { s.cc with phase := .sealing } }

/-- One step of the sweep: the next record is examined, the cursor moves to it, and when no record lies above it the
sweep ends (R34; log 18). -/
def State.sweepStep (s : State) (st : Settings) : State :=
  if s.cc.phase != .sweeping || s.ct.cursor.isNone then s
  else
    match s.nextSwept with
    | none => s.sweepEnd st
    | some c =>
      let s := (s.examine st c).setCursor (some c.serial)
      if s.nextSwept.isNone then s.sweepEnd st else s

/-- The seal window runs out: in SWEEPING the timer stops; in SEALING the seal is made, not forced (R140). -/
def State.windowExpiry (s : State) (st : Settings) : State :=
  match s.cc.sealTimer with
  | none => s
  | some d =>
    if d ≤ s.now then
      let s : State := { s with cc := { s.cc with sealTimer := none } }
      if s.cc.phase = .sealing then s.makeSeal st false else s
    else s

/-- The seal window has run out (R140). -/
def State.windowOver (s : State) : Bool :=
  match s.cc.sealTimer with
  | none => true
  | some d => decide (d ≤ s.now)

/-- The seal at the moment a cause of R146 holds: the sweep has ended, and the window has expired or a target is
pending. -/
def State.sealDue (s : State) (st : Settings) : State :=
  if (s.cc.phase == .sweeping || s.cc.phase == .sealing) && s.ct.cursor.isNone &&
      (s.windowOver || s.cc.pendingTarget.isSome) then s.makeSeal st (!s.windowOver)
  else s

/-! ### Closes asked for -/

/-- The pending target after a close with target `t` is kept (R143). -/
def Cycles.keepTarget (cc : Cycles) (t : Nat) : Cycles :=
  { cc with pendingTarget := some (match cc.pendingTarget with | some u => max u t | none => t) }

/-- A close with target `t` is kept as the pending target. -/
def State.keepTarget (s : State) (t : Nat) : State := { s with cc := s.cc.keepTarget t }

/-- A catch-up close with target `t` (R142). In SEALING the target is kept while the forced seal is made, whose
completion makes the close. -/
def State.catchUp (s : State) (st : Settings) (t : Nat) : State :=
  match s.cc.phase with
  | .steady => s.closeAt st t
  | .sweeping => s.keepTarget t
  | .sealing => (s.keepTarget t).makeSeal st s.cc.sealTimer.isSome
  | .deferred => s.keepTarget t

/-- The catch-up check of a header's sender cycle (R141). -/
def State.catchUpCheck (s : State) (st : Settings) (senderCycle : Nat) : State :=
  if s.cc.openCycle < senderCycle then s.catchUp st senderCycle else s

/-- The values of CLOSE_DAY answered OK: the cycle closed, the new open cycle, whether a forced seal was made (R142). -/
def closedReply (o : Nat) (forced : Bool) : Reply := ⟨.ok, [.cycle (some o), .cycle (some (o + 1)), .flag forced]⟩

/-- CLOSE_DAY (R142). -/
def State.closeDay (s : State) (st : Settings) : State × Reply :=
  let o := s.cc.openCycle
  if Config.countMax ≤ o then (s, .plain .cycleLimit)
  else
    match s.cc.phase with
    | .steady => (s.closeAt st (o + 1), closedReply o false)
    | .sweeping =>
      let s := s.keepTarget (o + 1)
      (s, ⟨.closePending, [.cycle s.cc.pendingTarget]⟩)
    | .sealing =>
      match s.su.grantSlot with
      | some _ => ((s.keepTarget (o + 1)).makeSeal st s.cc.sealTimer.isSome, closedReply o s.cc.sealTimer.isSome)
      | none => (s.makeSeal st s.cc.sealTimer.isSome, .plain .slotsFull)
    | .deferred => (s, .plain .slotsFull)

/-- READ_STATEMENT (R165, R167): a read that completes frees the slot, and a deferred seal completes in that step. -/
def State.readStatement (s : State) (st : Settings) : State × Reply :=
  match s.su.slots with
  | [] => (s, .plain .nothing)
  | x :: _ =>
    let r : Reply := ⟨.ok, x.statement.partValues s.su.readPos⟩
    if s.su.readPos < x.statement.lines.length then ({ s with su := s.su.advance }, r)
    else ({ s with su := s.su.freeOldest : State }.completeDeferred st, r)

/-! ### The rate schedule -/

/-- A staged entry put in its place, in ascending order of effective cycle, over one with the same cycle (R155). -/
def stage (e : Staged) : List Staged → List Staged
  | [] => [e]
  | x :: xs =>
    if e.effective < x.effective then e :: x :: xs
    else if e.effective = x.effective then e :: xs
    else x :: stage e xs

/-- SET_RATE with its effective cycle read (R155). -/
def State.setRate (s : State) (rate fee effective : Nat) : State × Reply :=
  if 1500 < rate ∨ 99 < fee ∨ effective = 0 then (s, .plain .badSetting)
  else if effective ≤ s.cc.openCycle then (s, .plain .pastCycle)
  else if 2 ≤ s.cc.schedule.length ∧ ¬ s.cc.schedule.any (fun e => e.effective == effective) then
    (s, .plain .scheduleFull)
  else
    let sched := stage ⟨effective, ⟨rate, fee⟩⟩ s.cc.schedule
    ({ s with cc := { s.cc with schedule := sched } },
      ⟨.ok, (s.cc.active.getD ⟨0, 0⟩).values ++ scheduleValues sched⟩)

end Sys2Proof.Machine
end

