-- ==== Sys2Proof/Machine/Station.lean ====
section
/-! DEFINITION. The Link Controller's station states and its transmitter (chapter 5): entry to WITHDRAWN, the clash,
JOIN, DRAIN and LEAVE, the starts and ends of frames, and its timers. -/

namespace Sys2Proof.Machine

/-! ### Station states -/

/-- The line as the station's own transmitter leaves it when it is cut off now: its last transition is now (R77;
log 21). -/
def Link.lineCut (l : Link) (now : Moment) : Line := if l.isDriving then ⟨false, now⟩ else l.line

/-- The Link Controller on entry to WITHDRAWN (R94). -/
def Link.withdraw (l : Link) (now : Moment) : Link :=
  { l with
    station := .withdrawn, answerQ := [], requestQ := [], tx := .idle, line := l.lineCut now, beaconAt := none,
    heldBeacon := false, wanted := wantedClear, listenEnd := none, badFrames := [] }

/-- Entry to WITHDRAWN (R94): the Link Controller's part, then the exchanges set aside (R110) and presence forgotten
(R121), in one step. The discard reports of R94 set reply deadlines that R110 removes at once. -/
def State.withdraw (s : State) : State :=
  ({ s with lc := s.lc.withdraw s.now : State }.setAsideAll.forgetPresence).fillResults

/-- A clash (R92). -/
def State.clashFound (s : State) : State :=
  match s.lc.station with
  | .listening =>
    ({ s with lc := { s.lc with station := .offline, listenEnd := none, badFrames := [], clash := true } :
      State }.forgetPresence).linkResult .clash
  | .active | .draining =>
    let s := s.withdraw
    { s with lc := { s.lc with clash := true } : State }.linkResult .clash
  | _ => s

/-- An exchange in QUEUED, WAITING or UNSURE (R93). -/
def Exchange.delaysDrain (e : Exchange) : Bool := e.underWay || e.state == .unsure

/-- The conditions of R93 hold together. -/
def State.drained (s : State) : Bool :=
  s.ht.peerOpenCount == 0 && !(s.xt.exchanges.any Exchange.delaysDrain) && s.lc.answerQ.isEmpty &&
    s.lc.requestQ.all (fun q => q.frame.body == .beacon) && !(s.lc.wanted.any fun m => m.tally || m.check) &&
    !s.lc.isDriving

/-- The drain test: a DRAINING station whose conditions hold enters WITHDRAWN with a link result DRAINED (R93). -/
def State.drainTest (s : State) : State :=
  if s.lc.station == .draining && s.drained then s.withdraw.linkResult .drained else s

/-- JOIN (R91, R92). -/
def State.join (s : State) : State × Reply :=
  match s.lc.station with
  | .offline | .withdrawn =>
    ({ s with lc := { s.lc with station := .listening, listenEnd := some (s.now + Config.listenSpan), clash := false } },
      .plain .ok)
  | st => (s, ⟨.ok, [.num1 st.code]⟩)

/-- DRAIN (R93). -/
def State.drain (s : State) : State × Reply :=
  match s.lc.station with
  | .active => ({ s with lc := { s.lc with station := .draining } : State }.drainTest, .plain .ok)
  | .draining => (s, .plain .ok)
  | _ => (s, .plain .notActive)

/-- LEAVE (R94). -/
def State.leave (s : State) : State × Reply :=
  match s.lc.station with
  | .listening | .active | .draining => (s.withdraw, .plain .ok)
  | _ => (s, .plain .ok)

/-- The listen timer runs out: ACTIVE, the first beacon time, the frames owed to PRESENT peers, and JOINED (R91, R89,
R122, R95). -/
def State.listenOver (s : State) : State :=
  match s.lc.station, s.lc.listenEnd with
  | .listening, some d =>
    if d ≤ s.now then
      (({ s with lc := { s.lc with station := .active, listenEnd := none } : State }.beaconDue d).askOwedAll).linkResult
        .joined
    else s
  | _, _ => s

/-! ### The line -/

/-- The slots left of a frame after an idle period that began at `since` and ends now: whole slots counted after the
gap are spent (R80). -/
def slotsLeft (since gap now k : Nat) : Nat := k - (now - (since + gap)) / Config.slotSpan

/-- The head of a queue keeps the slots that were not counted (R79, R80). -/
def spendSlots (since gap now : Nat) : List QFrame → List QFrame
  | [] => []
  | f :: rest => { f with slots := f.slots.map (slotsLeft since gap now) } :: rest

/-- A transition is seen at `now`: the line is busy, and its last transition is this one. The first after an idle
period cuts the gaps and the slots off: both heads keep the slots not yet counted (R77, R80; for a collided answer log
42). -/
def Link.becomeBusy (l : Link) (now : Moment) : Link :=
  if l.line.idle then
    { l with
      line := ⟨false, now⟩, answerQ := spendSlots l.line.since Config.answerGap now l.answerQ,
      requestQ := spendSlots l.line.since Config.requestGap now l.requestQ }
  else { l with line := ⟨false, now⟩ }

/-- A transition is seen (R77). -/
def State.lineBusy (s : State) : State := { s with lc := s.lc.becomeBusy s.now }

/-- The line becomes idle: 12 bit times since its last transition; this moment is the idle point (R77). -/
def Link.becomeIdle (l : Link) (now : Moment) : Link :=
  if !l.line.idle && !l.isDriving && decide (l.line.since + Config.idleSpan ≤ now) then { l with line := ⟨true, now⟩ }
  else l

/-- Twelve bit times have passed without a transition (R77). -/
def State.lineIdle (s : State) : State := { s with lc := s.lc.becomeIdle s.now }

/-! ### Starts -/

/-- A frame's gap and slots have run out (R79, R80). -/
def QFrame.ready (f : QFrame) (since gap now : Nat) : Bool :=
  match f.slots with
  | some k => decide (since + gap + k * Config.slotSpan ≤ now)
  | none => false

/-- The line and the station permit a start: on the line, the line idle, the transmitter idle (R77, R79). -/
def Link.permits (l : Link) : Bool := l.onLine && l.line.idle && !l.isDriving

/-- The frame at the head of the answer queue that may start (R79). -/
def State.answerReady (s : State) : Option QFrame :=
  match s.lc.answerQ with
  | [] => none
  | f :: _ => if s.lc.permits && f.ready s.lc.line.since Config.answerGap s.now then some f else none

/-- The request spacing has passed (R81). -/
def State.spacingOver (s : State) (st : Settings) : Bool :=
  match s.lc.lastRequest with
  | none => true
  | some m => decide (m + st.requestSpacing * 1000 ≤ s.now)

/-- The frame at the head of the request queue that may start; the answer queue is served first (R79 to R81). -/
def State.requestReady (s : State) (st : Settings) : Option QFrame :=
  match s.lc.requestQ with
  | [] => none
  | f :: _ =>
    if s.lc.permits && s.answerReady.isNone && f.ready s.lc.line.since Config.requestGap s.now && s.spacingOver st then
      some f
    else none

/-- The bytes of a frame with this station's number, open cycle and state as they stand (R96 note 2). -/
def State.bytesOf (s : State) (f : Frame) : List Byte := frameBytes s.own s.cc.openCycle s.lc.station.sender f

/-- The transmitter starts a frame: the line is busy with its first transition (R77, R79). -/
def State.startFrame (s : State) (answer : Bool) (f : QFrame) : State :=
  { s with lc := { s.lc.becomeBusy s.now with tx := .driving answer (s.bytesOf f.frame) s.now } }

/-- The head of the answer queue starts (R79). -/
def State.startAnswer (s : State) : State :=
  match s.answerReady with
  | some f => s.startFrame true f
  | none => s

/-- The head of the request queue starts, which sets the reference of the request spacing (R80, R81). -/
def State.startRequest (s : State) (st : Settings) : State :=
  match s.requestReady st with
  | some f =>
    let s := s.startFrame false f
    { s with lc := { s.lc with lastRequest := some s.now } }
  | none => s

/-- The end of a request spacing that holds a frame back: it starts when the line has stayed idle (R81). -/
def State.spacingExpiry (s : State) (st : Settings) : State :=
  if s.lc.lastRequest.isSome then s.startRequest st else s

/-! ### Ends -/

/-- The transmitter is idle. Its last transition was at `m`, and the line's last one is that or a later one already
seen (R77, R82). -/
def State.stopDriving (s : State) (m : Moment) : State :=
  { s with lc := { s.lc with tx := .idle, line := ⟨false, max s.lc.line.since m⟩ } }

/-- The Link Controller's report of a discarded request frame to its owner (R82, R107, R130, R132). -/
def State.reportDiscard (s : State) (f : Frame) : State :=
  match f.body with
  | .tally .. => s.askTally f.dest
  | .check => s.askCheck f.dest
  | .beacon => s
  | _ => s.reportFrame f.tag s.now

/-- The Link Controller's report of a request frame sent whole at `m` to its owner: the reply deadline of an exchange
(R107), the tally owed of a TALLY that carried s_last (R132). -/
def State.reportSent (s : State) (f : Frame) (m : Moment) : State :=
  match f.body with
  | .tally c _ _ => s.modPeer f.dest fun e => { e with tallyOwed := e.tallyOwed && c != e.sLast }
  | .check => s
  | .beacon => s
  | _ => s.reportFrame f.tag m

/-- SEND_FAILED is true until 1,000 ms have passed (R82). -/
def State.raiseSendFailed (s : State) : State :=
  { s with lc := { s.lc with sendFailed := some (s.now + Config.noiseSpan) } }

/-- A collided answer: discarded at its tenth attempt, else its attempt number rises and its slots are drawn (R79,
R82). -/
def State.answerCollided (s : State) : State :=
  match s.lc.answerQ with
  | [] => s
  | f :: rest =>
    if Config.attemptsMax ≤ f.attempt then { s with lc := { s.lc with answerQ := rest } : State }.raiseSendFailed
    else
      { s with
        lc := { s.lc with
          answerQ := { f with attempt := f.attempt + 1, slots := some (drawnSlots s.draws (f.attempt + 1)) } :: rest },
        draws := s.draws + 1 }

/-- A collided request: discarded at its tenth attempt, its owner told and the room filled; else its attempt number
rises and it draws anew (R80, R82). -/
def State.requestCollided (s : State) : State :=
  match s.lc.requestQ with
  | [] => s
  | f :: rest =>
    if Config.attemptsMax ≤ f.attempt then
      (((s.setRequestQ rest).raiseSendFailed).reportDiscard f.frame).fillRequests
    else s.setRequestQ ({ f with attempt := f.attempt + 1, slots := none } :: rest)

/-- A readback mismatch within the frame being driven stops it (R82). -/
def State.collide (s : State) : State :=
  match s.lc.tx with
  | .idle => s
  | .driving answer bytes start =>
    if s.now ≤ start + frameSpan bytes then
      let s := s.stopDriving s.now
      if answer then s.answerCollided else s.requestCollided
    else s

/-- A request frame sent whole at `m` leaves its queue; its owner is told and the room filled (R82, R84). -/
def State.requestSent (s : State) (m : Moment) : State :=
  match s.lc.requestQ with
  | [] => s
  | f :: rest => ((s.setRequestQ rest).reportSent f.frame m).fillRequests

/-- An answer frame sent whole leaves its queue; it is reported to no block (R82, R83). -/
def State.answerSent (s : State) : State := { s with lc := { s.lc with answerQ := s.lc.answerQ.tail } }

/-- A frame driven to the end of its CRC has been sent whole (R82). -/
def State.frameSent (s : State) : State :=
  match s.lc.tx with
  | .idle => s
  | .driving answer bytes start =>
    if start + frameSpan bytes ≤ s.now then
      let s := s.stopDriving (lastTransition bytes start)
      if answer then s.answerSent else s.requestSent (start + frameSpan bytes)
    else s

/-! ### Timers -/

/-- A beacon time (R89). -/
def State.beaconTime (s : State) : State :=
  match s.lc.beaconAt with
  | some d => if d ≤ s.now then s.beaconDue d else s
  | none => s

/-- A stored end that has been reached is taken away. -/
def expired (now : Moment) : Option Moment → Option Moment
  | some d => if d ≤ now then none else some d
  | none => none

/-- SEND_FAILED after its 1,000 ms (R82). -/
def State.sendFailedExpiry (s : State) : State := { s with lc := { s.lc with sendFailed := expired s.now s.lc.sendFailed } }

/-- ANSWER_DROPPED after its 1,000 ms (R83). -/
def State.answerDroppedExpiry (s : State) : State :=
  { s with lc := { s.lc with answerDropped := expired s.now s.lc.answerDropped } }

/-- The bad frames of the 1,000 ms before `now` (R85; log 19). -/
def recentBad (now : Moment) (ms : List Moment) : List Moment := ms.filter fun m => decide (now < m + Config.noiseSpan)

/-- Bad frames older than 1,000 ms no longer count (R85). -/
def State.noiseExpiry (s : State) : State := { s with lc := { s.lc with badFrames := recentBad s.now s.lc.badFrames } }

/-- A bad or oversize frame is counted (R85). -/
def State.countBad (s : State) : State :=
  { s with lc := { s.lc with badFrames := recentBad s.now s.lc.badFrames ++ [s.now] } }

/-- The last-heard timer of an entry runs out (R121). -/
def PeerEntry.absentAt (e : PeerEntry) (now : Moment) : PeerEntry :=
  match e.presence, e.lastHeard with
  | .present, some d => if d ≤ now then { e with presence := .absent, lastHeard := none } else e
  | _, _ => e

/-- The last-heard timer of a peer runs out (R121). -/
def State.peerAbsent (s : State) (p : Nat) : State := s.modPeer p fun e => e.absentAt s.now

end Sys2Proof.Machine
end

