-- ==== Sys2Proof/Machine/Starts.lean ====
section
/-! DEFINITION. Starts and supplies (R186 to R190): the cold start, the warm start by each chapter's start table
(R37, R61, R75, R99, R118, R136, R156, R170, R177), power-up, power loss and retention loss. -/

namespace Sys2Proof.Machine

/-- A cold start (R187): every block at its cold-start value, the mark valid, main power present. The model's clock,
free-value counters and queue go on. -/
def State.coldStart (s : State) : State :=
  { State.reset with
    now := s.now, draws := s.draws, seq := s.seq, pending := s.pending,
    pins := { State.reset.pins with miso := s.pins.miso }, lc := Link.reset s.now }

/-- The deadline of an OPEN hold restarted in full (R61). -/
def Hold.restart (h : Hold) (deadline : Moment) : Hold :=
  if h.state = .held then { h with deadline := some deadline } else h

/-- The Hold Table after a warm start (R61). -/
def HoldTable.warm (ht : HoldTable) (deadline : Moment) : HoldTable :=
  { ht with holds := ht.holds.map fun h => h.restart deadline }

/-- An entry after a warm start: presence UNKNOWN and nothing known of the last header (R136). -/
def PeerEntry.warm (e : PeerEntry) : PeerEntry :=
  { e with presence := .unknown, lastHeard := none, lastState := none, lastCycle := none }

/-- The Cycle Controller after a warm start: the window restarted in full in SWEEPING and SEALING, stopped otherwise
(R140, R156). -/
def Cycles.warm (cc : Cycles) (windowEnd : Moment) : Cycles :=
  { cc with sealTimer := match cc.phase with
      | .sweeping | .sealing => some windowEnd
      | .steady | .deferred => none }

/-- The Statement Unit after a warm start (R170). -/
def StatementUnit.warm (su : StatementUnit) : StatementUnit := { su with readPos := 0, reportLost := false }

/-- The Monitor Unit after a warm start, before the latches are set again: the station-source latches clear (R177). -/
def Monitor.warm (mu : Monitor) : Monitor := { mu with latched := mu.latched &&& peerGroupMask }

/-- The Terminal Port after a warm start: the buffer empty, the busy count 0, IDLE (R188 step 4); the result queue
and the enrolment kept (R182, R184). -/
def Port.warm (tp : Port) : Port := { tp with state := .idle, response := none, busy := 0 }

/-- The blocks that need no setting after a warm start. The held link result is dropped with the Link Controller's
state (R95, R99). -/
def State.warmBlocks (s : State) : State :=
  { s with
    tp := s.tp.warm, lc := Link.reset s.now, pt := s.pt.map PeerEntry.warm, su := s.su.warm, mu := s.mu.warm }

/-- A warm start (R188): the Record Store kept and each block at its warm-start state; the exchanges are set aside as
R118 lays down and their results offered (R117). The latches are set again from the live conditions at the end of
the step (R177). -/
def State.warmStart (s : State) : State :=
  let s1 := s.warmBlocks
  match s1.tp.settings with
  | none => s1
  | some st =>
    let s2 : State := { s1 with
      ht := s1.ht.warm (s1.now + st.holdLifetime * 1000000), cc := s1.cc.warm (s1.windowEnd st) }
    (s2.setAsideAll.fillResults).formExposures st

/-- Power-up: warm or cold by the retention mark (R187, R188, R190). -/
def State.powerUp (s : State) : State :=
  let s : State := { s with power := true }
  if s.retention then s.warmStart else s.coldStart

/-- Main power rises. With main power present there is no power-up and nothing happens (log 16). -/
def powerRise (t : Moment) (s : State) : Answer :=
  .next (finish (if s.power then s.atMoment t else (s.atMoment t).powerUp))

/-- Main power falls below 2.7 V: all work stops and the line is released (R190). -/
def State.powerDown (s : State) : State := { s with power := false, lc := { s.lc with tx := .idle } }

/-- The mark becomes invalid; the supply that kept the store is below 2.0 V, so main power is absent (R186; log 15). -/
def State.loseRetention (s : State) : State := { s.powerDown with retention := false }

/-- The rise of NRST: a warm start after at least 10 µs low (R188). -/
def State.resetPin (s : State) (low : Moment) : State := if Config.resetLow ≤ low then s.warmStart else s

/-- RESTART (R188). -/
def State.restart (s : State) : State × Reply := (s.warmStart, .plain .ok)

/-- The first condition of R189 that fails, by its order number. -/
def State.wipeRefusal (s : State) : Option Nat :=
  if s.ct.float ≠ 0 then some 1
  else if s.ht.openCount ≠ 0 then some 2
  else if !s.xt.exchanges.isEmpty then some 3
  else if s.cc.phase ≠ .steady then some 4
  else if !s.su.slots.isEmpty then some 5
  else none

/-- WIPE (R189). The order number of NOT_EMPTY is sent as one byte (log 12). -/
def State.wipe (s : State) : State × Reply :=
  match s.wipeRefusal with
  | some k => (s, ⟨.notEmpty, [.num1 k]⟩)
  | none => (s.coldStart, .plain .ok)

end Sys2Proof.Machine
end

