-- ==== Sys2Proof/Machine/Commands.lean ====
section
/-! DEFINITION. The till commands (R180): the tests every command meets in their order, the values each answers with,
and the hand-over to the blocks. One definition per command, from its raw parameters. -/

namespace Sys2Proof.Machine

/-- What a command does: the state after it and its response. -/
abbrev Effect := State → State × Reply

/-- The enrolment test (R180 test 1). -/
def enrolled (f : Settings → Effect) : Effect := fun s =>
  match s.tp.settings with
  | none => (s, .plain .notEnrolled)
  | some st => f st s

/-- The card reference test (R180 test 2, R14). -/
def withRef (ref : RefField) (f : CardRef → Effect) : Effect := fun s =>
  match readRef ref with
  | none => (s, .plain .badReference)
  | some c => f c s

/-- The test of a card-level amount (R180 test 3, R15). -/
def withAmount (a : AmountField) (f : Nat → Effect) : Effect := fun s =>
  match readCardAmount a with
  | none => (s, .refuse .amount)
  | some n => f n s

/-- The digits of a cycle parameter: a block that fails is not whole (R180). -/
def withCycle (c : CycleField) (f : Nat → Effect) : Effect := fun s =>
  match readCycle c with
  | none => (s, .refuse .malformed)
  | some n => f n s

/-- The digits of a trail number parameter: a block that fails is not whole (R180). -/
def withTrail (n : Digits8Field) (f : Nat → Effect) : Effect := fun s =>
  match bcdNat? 8 n.toNat with
  | none => (s, .refuse .malformed)
  | some n => f n s

/-- A command of the Card Table on a card of this station: any other home is refused NOT_HOME (R19). -/
def ownCard (ref : RefField) (f : Settings → Nat → Effect) : Effect :=
  enrolled fun st => withRef ref fun c s => if c.home = st.station then f st c.serial s else (s, .plain .notHome)

/-- A peer parameter: 0, above 63 or the own number is refused BAD_SETTING (R119). -/
def withPeer (peer : BitVec 8) (f : Settings → Nat → Effect) : Effect :=
  enrolled fun st s =>
    if peer.toNat = 0 ∨ Config.stationMax < peer.toNat ∨ peer.toNat = st.station then (s, .plain .badSetting)
    else f st peer.toNat s

/-! ### Enrolment and the link -/

/-- An accepted ENROL (R185, R178). -/
def State.applySettings (s : State) (st : Settings) : State :=
  { s with
    tp := { s.tp with settings := some st },
    cc := { s.cc with active := some ⟨st.initialRate, st.initialFee⟩, schedule := [] },
    mu := { s.mu with detect := st.detectEnables, latch := st.latchEnables, stopOnError := st.stopOnError } }

/-- ENROL (R185). -/
def cmdEnrol (f : EnrolFields) : Effect := fun s =>
  match s.tp.settings with
  | some _ => (s, .plain .alreadyEnrolled)
  | none =>
    match readSettings f with
    | .error i => (s, ⟨.badSetting, [.num1 i]⟩)
    | .ok st => (s.applySettings st, ⟨.ok, st.values⟩)

/-- JOIN (R91). -/
def cmdJoin : Effect := enrolled fun _ => State.join
/-- DRAIN (R93). -/
def cmdDrain : Effect := enrolled fun _ => State.drain
/-- LEAVE (R94). -/
def cmdLeave : Effect := enrolled fun _ => State.leave

/-! ### Own cards -/

/-- ISSUE (R20). -/
def cmdIssue (amount : AmountField) (validity : CycleField) : Effect :=
  withCycle validity fun v => enrolled fun st => withAmount amount fun a s => s.issue st a v

/-- LOAD (R22). -/
def cmdLoad (ref : RefField) (amount : AmountField) : Effect :=
  enrolled fun st => withRef ref fun c => withAmount amount fun a s =>
    if c.home = st.station then s.load st c.serial a else (s, .plain .notHome)

/-- CASHOUT (R23). -/
def cmdCashout (ref : RefField) : Effect := ownCard ref fun _ n s => s.cashout n
/-- FREEZE (R24). -/
def cmdFreeze (ref : RefField) : Effect := ownCard ref fun _ n s => s.setFrozen n .frozen
/-- THAW (R24). -/
def cmdThaw (ref : RefField) : Effect := ownCard ref fun _ n s => s.setFrozen n .active

/-! ### Cards of any station: the own tables, or an exchange (R103) -/

/-- ENQUIRE (R25, R103). -/
def cmdEnquire (ref : RefField) (token : Token) : Effect :=
  enrolled fun st => withRef ref fun c s =>
    if c.home = st.station then s.enquireOwn c.serial else s.openExchange .probe c.home c.serial token

/-- The kind of exchange an AUTHORIZE becomes (R103). -/
def authorizeParams (asked least : Nat) : ExParams := if asked = 0 then .probe else .hold asked least

/-- AUTHORIZE (R57, R103); a pair that forms no request is refused AMOUNT (R11). -/
def cmdAuthorize (ref : RefField) (asked least : AmountField) (token : Token) : Effect :=
  enrolled fun st => withRef ref fun c => withAmount asked fun a => withAmount least fun l s =>
    if !formsRequest a l then (s, .refuse .amount)
    else if c.home = st.station then s.authorizeOwn st c.serial a (leastAsRead a l)
    else s.openExchange (authorizeParams a (leastAsRead a l)) c.home c.serial token

/-- CAPTURE (R58, R103). -/
def cmdCapture (ref : RefField) (holdId : Num2Field) (amount : AmountField) (token : Token) : Effect :=
  enrolled fun st => withRef ref fun c => withAmount amount fun a s =>
    if c.home = st.station then
      let (s', r) := s.captureOwn st c.serial holdId.toNat a
      (s', r.reply)
    else s.openExchange (.capture holdId.toNat a) c.home c.serial token

/-- VOID (R59, R103). -/
def cmdVoid (ref : RefField) (holdId : Num2Field) (token : Token) : Effect :=
  enrolled fun st => withRef ref fun c s =>
    if c.home = st.station then
      let (s', r) := s.freeHold st st.station holdId.toNat c.serial
      (s', r.reply)
    else s.openExchange (.void holdId.toNat) c.home c.serial token

/-- REFUND (R73, R103). -/
def cmdRefund (ref : RefField) (trail : Digits8Field) (amount : AmountField) (token : Token) : Effect :=
  withTrail trail fun n => enrolled fun st => withRef ref fun c => withAmount amount fun a s =>
    if c.home = st.station then
      let (s', r) := s.refundOwn st c.serial n a
      (s', r.reply)
    else s.openExchange (.refund n a) c.home c.serial token

/-! ### Cycles, statements and results -/

/-- CLOSE_DAY (R142). -/
def cmdCloseDay : Effect := enrolled fun st s => s.closeDay st
/-- REPORT (R163). -/
def cmdReport : Effect := enrolled fun st s => s.report st
/-- SET_RATE (R155). -/
def cmdSetRate (rate : BitVec 16) (fee : BitVec 8) (effective : CycleField) : Effect :=
  withCycle effective fun e => enrolled fun _ s => s.setRate rate.toNat fee.toNat e
/-- READ_STATEMENT (R165). -/
def cmdReadStatement : Effect := enrolled fun st s => s.readStatement st

/-- READ_RESULT once enrolled (R182): the oldest result leaves, and a waiting one enters. -/
def State.readResult (s : State) : State × Reply :=
  match s.tp.results with
  | [] => (s, .plain .nothing)
  | r :: rest => ({ s with tp := { s.tp with results := rest } : State }.fillResults, ⟨.ok, r.values⟩)

/-- READ_RESULT (R182). -/
def cmdReadResult : Effect := enrolled fun _ s => s.readResult

/-! ### Peers -/

/-- The time since a peer was last heard, in ms, or 65,535 while its timer is stopped (R134, R180; log 24). -/
def heardAgo (now : Moment) : Option Moment → Nat
  | some d => (now + Config.absenceSpan - d) / 1000
  | none => 65535

/-- The code of a last sender state (R180). -/
def lastStateCode : Option SenderState → Nat
  | some st => st.code
  | none => 0

/-- The values of PEER_STATUS (R134). -/
def peerValues (now : Moment) (e : PeerEntry) (held : Nat) : List Value :=
  [.num1 e.presence.code, .num2 (heardAgo now e.lastHeard), .num1 (lastStateCode e.lastState), .cycle e.lastCycle] ++
    [.num1 e.standing.code, .num1 e.protocolCount] ++
    optionalGroup (Total.zero, Total.zero) (fun d => [.marked d.1, .marked d.2]) e.lastMismatch ++
    [.marked e.exposure, .num1 (if e.tripped then 1 else 0), .amount held] ++ e.openF.values ++
    optionalGroup Figures.zero Figures.values e.sealF ++
    [.marked e.lifeR, .marked e.lifeL, .marked e.lifeRs, .marked e.lifeLs, .cycle (some e.sLast)] ++
    [.flag e.tallyOwed] ++
    optionalGroup ⟨0, .zero, .zero⟩ (fun (y : Tally) => [.cycle (some y.cycle), .marked y.r, .marked y.l])
      e.pendingTally

/-- PEER_STATUS (R134). -/
def cmdPeerStatus (peer : BitVec 8) : Effect :=
  withPeer peer fun _ p s => (s, ⟨.ok, peerValues s.now (s.peer p) (s.heldSum p)⟩)

/-- CLEAR_PEER once its peer number is accepted (R129). For a GOOD or WATCH peer it has no effect, the protocol count
included (log 37). -/
def State.clearPeer (s : State) (p : Nat) : State × Reply :=
  match (s.peer p).standing with
  | .barred =>
    ((s.modPeer p fun e => { e with standing := .recheck, protocolCount := 0 }).askCheck p,
      ⟨.ok, [.num1 Standing.recheck.code]⟩)
  | .recheck => ((s.modPeer p fun e => { e with protocolCount := 0 }).askCheck p, ⟨.ok, [.num1 Standing.recheck.code]⟩)
  | st => (s, ⟨.ok, [.num1 st.code]⟩)

/-- CLEAR_PEER (R129). -/
def cmdClearPeer (peer : BitVec 8) : Effect := withPeer peer fun _ p s => s.clearPeer p

/-- An entry after an ADJUST (R133). -/
def PeerEntry.adjust (e : PeerEntry) (dR dL : Int) : PeerEntry :=
  { e with lifeR := e.lifeR.acc dR, lifeRs := e.lifeRs.acc dR, lifeL := e.lifeL.acc dL, lifeLs := e.lifeLs.acc dL }

/-- An ADJUST reports saturation (R133). -/
def PeerEntry.adjustSat (e : PeerEntry) (dR dL : Int) : Bool :=
  e.lifeR.accSat dR || e.lifeRs.accSat dR || e.lifeL.accSat dL || e.lifeLs.accSat dL

/-- The values of ADJUST: lifeR, lifeR_s, lifeL, lifeL_s after it, in the order of R133's table. -/
def adjustValues (e : PeerEntry) : List Value := [.marked e.lifeR, .marked e.lifeRs, .marked e.lifeL, .marked e.lifeLs]

/-- ADJUST once its parameters are read (R133). -/
def State.adjust (s : State) (p : Nat) (dR dL : Int) : State × Reply :=
  ((s.modPeer p fun e => e.adjust dR dL).raiseSat ((s.peer p).adjustSat dR dL),
    ⟨.ok, adjustValues ((s.peer p).adjust dR dL)⟩)

/-- ADJUST (R133); an amount field that is not of the type is refused BAD_SETTING (R180 test 3). -/
def cmdAdjust (peer : BitVec 8) (dR dL : AmountField) : Effect :=
  withPeer peer fun _ p s =>
    match readSigned dR, readSigned dL with
    | some r, some l => s.adjust p r l
    | _, _ => (s, .plain .badSetting)

/-! ### STATUS and CLEAR_MONITOR -/

/-- The thirteen sources, each with its shown state and its latched flag (R183). -/
def sourceValues (s : State) : List Value :=
  (List.range 13).flatMap fun i => [.flag ((shownBits s).getLsbD i), .flag (s.mu.latched.getLsbD i)]

/-- The code of a slot's state (R180). -/
def StatementUnit.slotCode (su : StatementUnit) (no : SlotNo) : Nat :=
  match su.slots.find? fun x => x.no == no with
  | some x => x.statement.kind.slotCode
  | none => 0

/-- Kind and number of the oldest statement after their flag; for none, kind 0 and number 0 (R183, R180). -/
def StatementUnit.oldestValues (su : StatementUnit) : List Value :=
  optionalGroup (0, 0) (fun (y : Nat × Nat) => [.num1 y.1, .num2 y.2])
    (su.slots.head?.map fun x => (x.statement.kind.code, x.statement.number))

/-- The number of OPEN holds and the other counts of STATUS (R183). -/
def collectionValues (s : State) : List Value :=
  [.num2 s.ct.cards.length, .num2 s.ht.holds.length, .num2 s.ht.openCount, .num2 s.tr.entries.length,
   .num2 s.xt.exchanges.length, .num2 s.tp.results.length]

/-- The cycles group of STATUS (R183). -/
def cycleValues (cc : Cycles) : List Value :=
  [.num1 cc.phase.code, .cycle (some cc.openCycle), .cycle (cc.sealing.map SealingSet.cycle),
   .cycle cc.pendingTarget, .flag (match cc.sealing with | some x => x.forced | none => false)] ++
    (cc.active.getD ⟨0, 0⟩).values ++ scheduleValues cc.schedule

/-- The values of STATUS in their order (R183). Before enrolment the cycles are returned as zero. -/
def statusValues (s : State) : List Value :=
  [.flag s.tp.settings.isSome, .num1 s.own, .num1 s.lc.station.code, .flag (stopped s)] ++
    (match s.tp.settings with
      | some _ => cycleValues s.cc
      | none => cycleValues { Cycles.reset with openCycle := 0 }) ++
    [.amount s.ct.float.toNat, .flag (errorFlag s), .flag (warningFlag s)] ++ sourceValues s ++ collectionValues s ++
    [.num1 (s.su.slotCode .one), .num1 (s.su.slotCode .two)] ++ s.su.oldestValues ++ [.num2 s.su.readPos] ++
    (s.tp.settings.getD Settings.none).values

/-- STATUS (R183). -/
def cmdStatus : Effect := fun s => (s, ⟨.ok, statusValues s⟩)

/-- The sources a CLEAR_MONITOR selects: bits 13 to 15 are ignored, and none selects all (R173, R180 note 2). -/
def selectedSources (selection : BitVec 16) : BitVec 13 :=
  if selection.setWidth 13 = 0 then BitVec.allOnes 13 else selection.setWidth 13

/-- The latched flags after a CLEAR_MONITOR (R173). -/
def clearedLatches (s : State) (sel : BitVec 13) : BitVec 13 := s.mu.latched &&& ~~~(sel &&& ~~~liveBits s)

/-- CLEAR_MONITOR once enrolled (R173). The latched flags are returned as one source list (log 38),
bits 13 to 15 as 0 (log 45). -/
def State.clearMonitor (s : State) (sel : BitVec 13) : State × Reply :=
  ({ s with mu := { s.mu with latched := clearedLatches s sel } },
    ⟨.ok, [.num2 (clearedLatches s sel).toNat, .num2 (sel &&& clearedLatches s sel).toNat]⟩)

/-- CLEAR_MONITOR (R173). -/
def cmdClearMonitor (selection : BitVec 16) : Effect := enrolled fun _ s => s.clearMonitor (selectedSources selection)

/-- RESTART (R188). -/
def cmdRestart : Effect := State.restart
/-- WIPE (R189). -/
def cmdWipe : Effect := State.wipe

/-- A command read from a block, executed (R180 test 4). -/
def runCommand (token : Token) : Command → Effect
  | .enrol f => cmdEnrol f
  | .join => cmdJoin
  | .drain => cmdDrain
  | .leave => cmdLeave
  | .issue a v => cmdIssue a v
  | .load r a => cmdLoad r a
  | .cashout r => cmdCashout r
  | .freeze r => cmdFreeze r
  | .thaw r => cmdThaw r
  | .enquire r => cmdEnquire r token
  | .authorize r a l => cmdAuthorize r a l token
  | .capture r i a => cmdCapture r i a token
  | .void r i => cmdVoid r i token
  | .refund r n a => cmdRefund r n a token
  | .closeDay => cmdCloseDay
  | .report => cmdReport
  | .setRate r f e => cmdSetRate r f e
  | .readStatement => cmdReadStatement
  | .readResult => cmdReadResult
  | .peerStatus p => cmdPeerStatus p
  | .clearPeer p => cmdClearPeer p
  | .adjust p r l => cmdAdjust p r l
  | .status => cmdStatus
  | .clearMonitor x => cmdClearMonitor x
  | .restart => cmdRestart
  | .wipe => cmdWipe

/-! ### Transfers (R179) -/

/-- The bytes the part shifts out, as far as the spec gives them (log 20). -/
def State.shiftOut (s : State) (bs : List Byte) : State := { s with pins := { s.pins with miso := bs } }

/-- The response is placed in the command buffer and the state becomes READY (R179). -/
def State.respond (s : State) (token : Token) (r : Reply) : State :=
  { s with tp := { s.tp with state := .ready, response := some ⟨r.status, token, s.tp.busy, r.values⟩ } }

/-- A refused write transfer: the busy count rises by one, to at most 255 (R179). -/
def State.countBusy (s : State) : State := { s with tp := { s.tp with busy := min 255 (s.tp.busy + 1) } }

/-- The port state as it is shifted out (R179). -/
def State.stateByte (s : State) : Byte := BitVec.ofNat 8 s.tp.state.code

/-- A write transfer of a command block (R179): in IDLE the command runs and its response is placed; in any other
state it is refused. -/
def State.write (token : Token) (run : Effect) (s : State) : State :=
  let s := s.shiftOut [s.stateByte]
  if s.tp.state = .idle then (run s).1.respond token (run s).2 else s.countBusy

/-- A read transfer that clocks out `n` bytes after the state byte (R179). The read that empties the buffer returns the
busy count to 0, so a write refused in READY shows in no response (log 40). -/
def State.read (s : State) (n : Nat) : State :=
  match s.tp.state, s.tp.response with
  | .ready, some r =>
    let s' := s.shiftOut (s.stateByte :: r.bytes.take n)
    if r.bytes.length ≤ n then { s' with tp := { s'.tp with state := .idle, response := none, busy := 0 } } else s'
  | _, _ => s.shiftOut (s.stateByte :: List.replicate n 0xFF#8)

/-- What a written block does (R180): a whole one is its command; any other is answered MALFORMED. -/
def runBlock (block : List Byte) : Effect :=
  match parseBlock block with
  | some c => runCommand (blockToken block) c
  | none => fun s => (s, .refuse .malformed)

/-- A transfer of the terminal port by the bytes the till sends (R179). -/
def State.transfer (s : State) : List Byte → State
  | [] => s.shiftOut []
  | kind :: bytes =>
    if kind = 0xC1#8 then s.write (blockToken bytes) (runBlock bytes)
    else if kind = 0xC2#8 then s.read bytes.length
    else s.shiftOut [s.stateByte]

end Sys2Proof.Machine
end

