-- ==== Sys2Proof/Machine/Reception.lean ====
section
/-! DEFINITION. Hearing a frame (R85 to R88): its class, its header, the tests of its body, and the hand-over to the
block that serves it. -/

namespace Sys2Proof.Machine

/-- The answer frame to a request from `source` with tag `tag` (R96 note 3). -/
def State.answerTo (s : State) (source tag : Nat) (b : Body) : State := s.offerAnswer ⟨source, tag, b⟩

/-- An ASK is served and answered (R43). -/
def State.onAsk (s : State) (st : Settings) (h : Header) (home serial asked least : Nat) : State :=
  let (s', b) := s.serveAsk st h.source h.tag home serial asked least
  s'.answerTo h.source h.tag b

/-- A TAKE is served and answered (R52). -/
def State.onTake (s : State) (st : Settings) (h : Header) (holdId serial amount : Nat) : State :=
  let (s', a) := s.serveTake st h.source h.tag holdId serial amount
  s'.answerTo h.source h.tag a.body

/-- A FREE is served and answered (R56). -/
def State.onFree (s : State) (st : Settings) (h : Header) (holdId serial : Nat) : State :=
  let (s', a) := s.freeHold st h.source holdId serial
  s'.answerTo h.source h.tag a.body

/-- A CREDIT is served and answered (R68). -/
def State.onCredit (s : State) (st : Settings) (h : Header) (serial trail amount : Nat) : State :=
  let (s', a) := s.serveCredit st h.source h.tag serial trail amount
  s'.answerTo h.source h.tag a.body

/-- A TALLY is sorted, and compared at once where R151 says so. -/
def State.onTally (s : State) (h : Header) (y : Tally) : State :=
  (s.modPeer h.source fun e => e.takeTally s.cc y).raiseSat ((s.peer h.source).takeTallySat s.cc y)

/-- A CHECK asks for a TALLY of the last sealed cycle (R131). -/
def State.onCheck (s : State) (h : Header) : State :=
  if (s.peer h.source).sLast = 0 then s else s.setTallyWanted h.source

/-- A BEACON: the frames owed to its sender are asked for (R130, R132), and UNSURE exchanges with it want a resend
(R109). The Position Table comes first, so its frames enter the request queue before the resends (log 43). -/
def State.onBeacon (s : State) (h : Header) : State := (s.askOwed h.source).wantResends h.source

/-- A frame that fits its kind is handed to the block that serves it (R88). -/
def State.handOver (s : State) (st : Settings) (h : Header) (b : Body) : State :=
  match b with
  | .ask home serial asked least => s.onAsk st h home serial asked least
  | .take holdId serial amount => s.onTake st h holdId serial amount
  | .free holdId serial => s.onFree st h holdId serial
  | .credit serial trail amount => s.onCredit st h serial trail amount
  | .tally c r l => s.onTally h ⟨c, r, l⟩
  | .check => s.onCheck h
  | .beacon => s.onBeacon h
  | .grant .. | .taken .. | .freed .. | .credited .. | .refuse .. => s.serveAnswer h.source h.tag b

/-- A body as received: its kind code and, when the kind is known and the length fits, its raw fields. -/
structure RxBody where
  kind : Nat
  raw : Option RawBody
  deriving DecidableEq, Repr

/-- The tests of R87: the body read, or none when the frame is malformed. -/
def RxBody.fit (x : RxBody) (h : Header) : Option Body :=
  if destinationFits x.kind h.dest && tagFits x.kind h.tag then x.raw.bind RawBody.read else none

/-- A malformed frame (R87): a protocol fault of its source, and REFUSE MALFORMED to a request with a tag. -/
def State.onMalformed (s : State) (h : Header) (kind : Nat) : State :=
  let s := s.protocolFault h.source
  if kind ∈ refusableKinds ∧ h.tag ≠ 0 then s.answerTo h.source h.tag (refuseBody kind .malformed 0) else s

/-- The body of a frame to this station or to all, in ACTIVE and DRAINING (R86 step 4, R87, R88). -/
def State.readBody (s : State) (st : Settings) (h : Header) (x : RxBody) : State :=
  match x.fit h with
  | some b => s.handOver st h b
  | none => s.onMalformed h x.kind

/-- Steps 2 and 3 of R86: presence, and the catch-up check. -/
def State.onHeader (s : State) (st : Settings) (h : Header) : State :=
  relatch ((s.hearPeer h).catchUpCheck st h.cycle)

/-- A readable frame: the clash test and the steps of R86. -/
def State.onReadable (s : State) (st : Settings) (h : Header) (x : RxBody) : State :=
  if h.source = st.station then s.clashFound
  else
    let s := s.onHeader st h
    if s.lc.onLine && (h.dest == 0 || h.dest == st.station) then (s.readBody st h x).drainTest else s.drainTest

/-- A good frame whose reading has ended (R85, R86): nothing when the station does not receive or the header is
unreadable. -/
def State.hearGood (s : State) (h : RxHeader) (x : RxBody) : State :=
  whenEnrolled s fun st =>
    if s.lc.receives then
      match readHeader h with
      | some h => s.onReadable st h x
      | none => s
    else s

/-- A good frame of a kind its command names (R98). -/
def State.hearKind (s : State) (h : RxHeader) (b : RawBody) : State := s.hearGood h ⟨b.kind, some b⟩

/-- A good frame by its kind code and body bytes. -/
def State.hearFrame (s : State) (f : RxFrame) : State :=
  s.hearGood f.header ⟨f.kind.toNat, parseBody f.kind.toNat f.body⟩

/-- What has been heard of the line to the end of a reading, bit by bit, by its class (R76, R85). -/
def State.hearBits (s : State) (heard : List Bool) : State :=
  match classifyBits heard with
  | .good f => s.hearFrame f
  | .fragment => s
  | .oversize => if s.lc.receives then s.countBad else s
  | .bad => if s.lc.receives then s.countBad else s

end Sys2Proof.Machine
end

