-- ==== Sys2Proof/Machine/Frames.lean ====
section
/-! DEFINITION. The meanings of the frames heard on the line (R85 to R88). -/

namespace Sys2Proof.Machine

/-- ASK_RECEIVED (R43): a good frame of kind ASK (R86 to R88; log 4). -/
def execAskReceived (t : Moment) (h : RxHeader) (ref : RefField) (asked least : AmountField) (s : State) : Answer :=
  event t (fun s => s.hearKind h (.ask ref asked least)) s

/-- TAKE_RECEIVED (R52): a good frame of kind TAKE (R86 to R88; log 4). -/
def execTakeReceived (t : Moment) (h : RxHeader) (holdId : Num2Field) (serial : Digits8Field)
    (amount : AmountField) (s : State) : Answer := event t (fun s => s.hearKind h (.take holdId serial amount)) s

/-- FREE_RECEIVED (R56): a good frame of kind FREE (R86 to R88; log 4). -/
def execFreeReceived (t : Moment) (h : RxHeader) (holdId : Num2Field) (serial : Digits8Field) (s : State) : Answer :=
  event t (fun s => s.hearKind h (.free holdId serial)) s

/-- CREDIT_RECEIVED (R68): a good frame of kind CREDIT (R86 to R88; log 4). -/
def execCreditReceived (t : Moment) (h : RxHeader) (serial trail : Digits8Field) (amount : AmountField)
    (s : State) : Answer := event t (fun s => s.hearKind h (.credit serial trail amount)) s

/-- GRANT_RECEIVED (R111): a good frame of kind GRANT (R86 to R88; log 4). -/
def execGrantReceived (t : Moment) (h : RxHeader) (holdId : Num2Field)
    (granted residual available balance : AmountField) (expiry : CycleField) (s : State) : Answer :=
  event t (fun s => s.hearKind h (.grant holdId granted residual available balance expiry)) s

/-- TAKEN_RECEIVED (R112): a good frame of kind TAKEN (R86 to R88; log 4). -/
def execTakenReceived (t : Moment) (h : RxHeader) (trail : Digits8Field) (captured released : AmountField)
    (booking : CycleField) (balance : AmountField) (s : State) : Answer :=
  event t (fun s => s.hearKind h (.taken trail captured released booking balance)) s

/-- FREED_RECEIVED (R111): a good frame of kind FREED (R86 to R88; log 4). -/
def execFreedReceived (t : Moment) (h : RxHeader) (released balance available : AmountField) (s : State) : Answer :=
  event t (fun s => s.hearKind h (.freed released balance available)) s

/-- CREDITED_RECEIVED (R112): a good frame of kind CREDITED (R86 to R88; log 4). -/
def execCreditedReceived (t : Moment) (h : RxHeader) (trail : Digits8Field) (amount remaining : AmountField)
    (booking : CycleField) (balance : AmountField) (s : State) : Answer :=
  event t (fun s => s.hearKind h (.credited trail amount remaining booking balance)) s

/-- REFUSE_RECEIVED (R111): a good frame of kind REFUSE (R86 to R88; log 4). -/
def execRefuseReceived (t : Moment) (h : RxHeader) (refusedKind reason : Byte) (value : AmountField)
    (s : State) : Answer := event t (fun s => s.hearKind h (.refuse refusedKind reason value)) s

/-- TALLY_RECEIVED (R151): a good frame of kind TALLY (R86 to R88; log 4). -/
def execTallyReceived (t : Moment) (h : RxHeader) (cycle : CycleField) (lifeRs lifeLs : AmountField)
    (marks : Byte) (s : State) : Answer := event t (fun s => s.hearKind h (.tally cycle lifeRs lifeLs marks)) s

/-- CHECK_RECEIVED (R131): a good frame of kind CHECK (R86 to R88; log 4). -/
def execCheckReceived (t : Moment) (h : RxHeader) (s : State) : Answer := event t (fun s => s.hearKind h .check) s

/-- BEACON_RECEIVED (R109): a good frame of kind BEACON (R86 to R88; log 4). -/
def execBeaconReceived (t : Moment) (h : RxHeader) (s : State) : Answer := event t (fun s => s.hearKind h .beacon) s

/-- FRAME_CLASH (R92): a good frame whose source is the own number. The machine decides by its fields (log 4). -/
def execFrameClash (t : Moment) (f : RxFrame) (s : State) : Answer := event t (fun s => s.hearFrame f) s

/-- MALFORMED_FRAME (R87): a good frame whose body does not fit its kind. The machine decides by its fields (log 4). -/
def execMalformedFrame (t : Moment) (f : RxFrame) (s : State) : Answer := event t (fun s => s.hearFrame f) s

/-- UNREADABLE_HEADER (R86): a good frame whose header is unreadable is discarded. The machine decides by its fields (log 4). -/
def execUnreadableHeader (t : Moment) (f : RxFrame) (s : State) : Answer := event t (fun s => s.hearFrame f) s

/-- HEADER_ONLY_FRAME (R86): a good frame read for its header alone. The machine decides by its fields (log 4). -/
def execHeaderOnlyFrame (t : Moment) (f : RxFrame) (s : State) : Answer := event t (fun s => s.hearFrame f) s

/-- BAD_FRAME (R85): a complete frame with a wrong CRC, or an oversize one, is discarded and counted. The machine decides by the bits (log 4). -/
def execBadFrame (t : Moment) (heard : List Bool) (s : State) : Answer := event t (fun s => s.hearBits heard) s

/-- FRAGMENT (R85): a frame cut short is discarded and not counted. The machine decides by the bits (log 4). -/
def execFragment (t : Moment) (heard : List Bool) (s : State) : Answer := event t (fun s => s.hearBits heard) s

end Sys2Proof.Machine
end

