-- ==== Sys2Proof/Machine/Line.lean ====
section
/-! DEFINITION. The meanings of the events of the line and of the transmitter (R77 to R84). -/

namespace Sys2Proof.Machine

/-- LINE_IDLE (R77). -/
def execLineIdle (t : Moment) (s : State) : Answer := event t State.lineIdle s

/-- LINE_BUSY (R77, R80). -/
def execLineBusy (t : Moment) (s : State) : Answer := event t State.lineBusy s

/-- ANSWER_START (R79). -/
def execAnswerStart (t : Moment) (s : State) : Answer := event t State.startAnswer s

/-- REQUEST_START (R80, R81). -/
def execRequestStart (t : Moment) (s : State) : Answer := event t (fun s => whenEnrolled s s.startRequest) s

/-- SPACING_EXPIRY (R81). -/
def execSpacingExpiry (t : Moment) (s : State) : Answer := event t (fun s => whenEnrolled s s.spacingExpiry) s

/-- COLLISION (R82), with the drain test that a discard may answer (R93). -/
def execCollision (t : Moment) (s : State) : Answer := event t (fun s => s.collide.drainTest) s

/-- FRAME_SENT (R82), with the drain test (R93). -/
def execFrameSent (t : Moment) (s : State) : Answer := event t (fun s => s.frameSent.drainTest) s

/-- REQUEST_QUEUE_FILL (R84); room is also filled in the step that makes it (log 17). -/
def execRequestQueueFill (t : Moment) (s : State) : Answer := event t State.fillRequests s

end Sys2Proof.Machine
end

