-- ==== Sys2Proof/Machine/Supplies.lean ====
section
/-! DEFINITION. The meanings of the starts and of the supplies (R186 to R190). -/

namespace Sys2Proof.Machine

/-- COLD_START (R187): power-up; the retention mark decides which start is made (log 16). -/
def execColdStart (t : Moment) (s : State) : Answer := powerRise t s

/-- WARM_START (R188): power-up; the retention mark decides which start is made (log 16). -/
def execWarmStart (t : Moment) (s : State) : Answer := powerRise t s

/-- NRST (R188): the pin rises after `low` µs. -/
def execNrst (t low : Moment) (s : State) : Answer := event t (fun s => s.resetPin low) s

/-- POWER_LOSS (R190). -/
def execPowerLoss (t : Moment) (s : State) : Answer := event t State.powerDown s

/-- RETENTION_LOSS (R186). -/
def execRetentionLoss (t : Moment) (s : State) : Answer := .next (finish (s.atMoment t).loseRetention)

end Sys2Proof.Machine
end

