-- ==== Sys2Proof/Machine/Till.lean ====
section
/-! DEFINITION. The meanings of the till commands and of the transfers of the terminal port (chapter 11). -/

namespace Sys2Proof.Machine

/-- ENROL (R185), as a write transfer of its block (R179). -/
def execEnrol (t : Moment) (token : Token) (settings : EnrolFields) (s : State) : Answer :=
  event t (State.write token (cmdEnrol settings)) s

/-- JOIN (R91), as a write transfer of its block (R179). -/
def execJoin (t : Moment) (token : Token) (s : State) : Answer := event t (State.write token cmdJoin) s

/-- DRAIN (R93), as a write transfer of its block (R179). -/
def execDrain (t : Moment) (token : Token) (s : State) : Answer := event t (State.write token cmdDrain) s

/-- LEAVE (R94), as a write transfer of its block (R179). -/
def execLeave (t : Moment) (token : Token) (s : State) : Answer := event t (State.write token cmdLeave) s

/-- ISSUE (R20), as a write transfer of its block (R179). -/
def execIssue (t : Moment) (token : Token) (amount : AmountField) (validity : CycleField) (s : State) : Answer :=
  event t (State.write token (cmdIssue amount validity)) s

/-- LOAD (R22), as a write transfer of its block (R179). -/
def execLoad (t : Moment) (token : Token) (ref : RefField) (amount : AmountField) (s : State) : Answer :=
  event t (State.write token (cmdLoad ref amount)) s

/-- CASHOUT (R23), as a write transfer of its block (R179). -/
def execCashout (t : Moment) (token : Token) (ref : RefField) (s : State) : Answer :=
  event t (State.write token (cmdCashout ref)) s

/-- FREEZE (R24), as a write transfer of its block (R179). -/
def execFreeze (t : Moment) (token : Token) (ref : RefField) (s : State) : Answer :=
  event t (State.write token (cmdFreeze ref)) s

/-- THAW (R24), as a write transfer of its block (R179). -/
def execThaw (t : Moment) (token : Token) (ref : RefField) (s : State) : Answer :=
  event t (State.write token (cmdThaw ref)) s

/-- ENQUIRE (R25, R103), as a write transfer of its block (R179). -/
def execEnquire (t : Moment) (token : Token) (ref : RefField) (s : State) : Answer :=
  event t (State.write token (cmdEnquire ref token)) s

/-- AUTHORIZE (R57, R103), as a write transfer of its block (R179). -/
def execAuthorize (t : Moment) (token : Token) (ref : RefField) (asked least : AmountField) (s : State) : Answer :=
  event t (State.write token (cmdAuthorize ref asked least token)) s

/-- CAPTURE (R58, R103), as a write transfer of its block (R179). -/
def execCapture (t : Moment) (token : Token) (ref : RefField) (holdId : Num2Field) (amount : AmountField)
    (s : State) : Answer := event t (State.write token (cmdCapture ref holdId amount token)) s

/-- VOID (R59, R103), as a write transfer of its block (R179). -/
def execVoid (t : Moment) (token : Token) (ref : RefField) (holdId : Num2Field) (s : State) : Answer :=
  event t (State.write token (cmdVoid ref holdId token)) s

/-- REFUND (R73, R103), as a write transfer of its block (R179). -/
def execRefund (t : Moment) (token : Token) (ref : RefField) (trail : Digits8Field) (amount : AmountField)
    (s : State) : Answer := event t (State.write token (cmdRefund ref trail amount token)) s

/-- CLOSE_DAY (R142), as a write transfer of its block (R179). -/
def execCloseDay (t : Moment) (token : Token) (s : State) : Answer := event t (State.write token cmdCloseDay) s

/-- REPORT (R163), as a write transfer of its block (R179). -/
def execReport (t : Moment) (token : Token) (s : State) : Answer := event t (State.write token cmdReport) s

/-- SET_RATE (R155), as a write transfer of its block (R179). -/
def execSetRate (t : Moment) (token : Token) (rate : BitVec 16) (fee : BitVec 8) (effective : CycleField)
    (s : State) : Answer := event t (State.write token (cmdSetRate rate fee effective)) s

/-- READ_STATEMENT (R165), as a write transfer of its block (R179). -/
def execReadStatement (t : Moment) (token : Token) (s : State) : Answer :=
  event t (State.write token cmdReadStatement) s

/-- READ_RESULT (R182), as a write transfer of its block (R179). -/
def execReadResult (t : Moment) (token : Token) (s : State) : Answer := event t (State.write token cmdReadResult) s

/-- PEER_STATUS (R134), as a write transfer of its block (R179). -/
def execPeerStatus (t : Moment) (token : Token) (peer : BitVec 8) (s : State) : Answer :=
  event t (State.write token (cmdPeerStatus peer)) s

/-- CLEAR_PEER (R129), as a write transfer of its block (R179). -/
def execClearPeer (t : Moment) (token : Token) (peer : BitVec 8) (s : State) : Answer :=
  event t (State.write token (cmdClearPeer peer)) s

/-- ADJUST (R133), as a write transfer of its block (R179). -/
def execAdjust (t : Moment) (token : Token) (peer : BitVec 8) (dR dL : AmountField) (s : State) : Answer :=
  event t (State.write token (cmdAdjust peer dR dL)) s

/-- STATUS (R183), as a write transfer of its block (R179). -/
def execStatus (t : Moment) (token : Token) (s : State) : Answer := event t (State.write token cmdStatus) s

/-- CLEAR_MONITOR (R173), as a write transfer of its block (R179). -/
def execClearMonitor (t : Moment) (token : Token) (selection : BitVec 16) (s : State) : Answer :=
  event t (State.write token (cmdClearMonitor selection)) s

/-- RESTART (R188), as a write transfer of its block (R179). -/
def execRestart (t : Moment) (token : Token) (s : State) : Answer := event t (State.write token cmdRestart) s

/-- WIPE (R189), as a write transfer of its block (R179). -/
def execWipe (t : Moment) (token : Token) (s : State) : Answer := event t (State.write token cmdWipe) s

/-- MALFORMED_BLOCK: a written block that is not whole (R180); the machine decides by its bytes (log 4). -/
def execMalformedBlock (t : Moment) (mosi : List Byte) (s : State) : Answer := event t (fun s => s.transfer mosi) s

/-- WRITE_REFUSED_BUSY: a write transfer outside IDLE (R179); the port state decides (log 4). -/
def execWriteRefusedBusy (t : Moment) (mosi : List Byte) (s : State) : Answer := event t (fun s => s.transfer mosi) s

/-- RESPONSE_READ: a read transfer (R179); the port state decides (log 4). -/
def execResponseRead (t : Moment) (mosi : List Byte) (s : State) : Answer := event t (fun s => s.transfer mosi) s

end Sys2Proof.Machine
end

