-- ==== Sys2Proof/Machine/Timers.lean ====
section
/-! DEFINITION. The meanings of the timers and of the steps the blocks make of themselves. -/

namespace Sys2Proof.Machine

/-- BEACON_TIME (R89). -/
def execBeaconTime (t : Moment) (s : State) : Answer := event t State.beaconTime s

/-- LISTEN_END (R91). -/
def execListenEnd (t : Moment) (s : State) : Answer := event t State.listenOver s

/-- SEND_FAILED_EXPIRY (R82). -/
def execSendFailedExpiry (t : Moment) (s : State) : Answer := event t State.sendFailedExpiry s

/-- ANSWER_DROPPED_EXPIRY (R83). -/
def execAnswerDroppedExpiry (t : Moment) (s : State) : Answer := event t State.answerDroppedExpiry s

/-- LINK_NOISE_EXPIRY (R85). -/
def execLinkNoiseExpiry (t : Moment) (s : State) : Answer := event t State.noiseExpiry s

/-- DRAIN_COMPLETE (R93); the test is also made in the step that changes a condition (log 17). -/
def execDrainComplete (t : Moment) (s : State) : Answer := event t State.drainTest s

/-- REPLY_TIMEOUT of the exchange with this tag (R108), with the drain test (R93). -/
def execReplyTimeout (t : Moment) (tag : Num2Field) (s : State) : Answer :=
  event t (fun s => (s.replyTimeout tag.toNat).drainTest) s

/-- RESULT_QUEUE_FILL (R182); results also enter in the step that makes room (log 17). -/
def execResultQueueFill (t : Moment) (s : State) : Answer := event t State.fillResults s

/-- PENDING_CLOSE (R143); the close is also made in the step that completes the seal (log 17). -/
def execPendingClose (t : Moment) (s : State) : Answer := event t (fun s => whenEnrolled s s.pendingClose) s

/-- SWEEP_STEP (R34). -/
def execSweepStep (t : Moment) (s : State) : Answer := event t (fun s => whenEnrolled s s.sweepStep) s

/-- SEAL_WINDOW_EXPIRY (R140). -/
def execSealWindowExpiry (t : Moment) (s : State) : Answer := event t (fun s => whenEnrolled s s.windowExpiry) s

/-- SEAL (R146); the seal is also made in the step that brings its cause (log 17). -/
def execSeal (t : Moment) (s : State) : Answer := event t (fun s => whenEnrolled s s.sealDue) s

/-- DEFERRED_SEAL_COMPLETION (R147); also within the READ_STATEMENT that frees the slot (log 17). -/
def execDeferredSealCompletion (t : Moment) (s : State) : Answer :=
  event t (fun s => whenEnrolled s s.completeDeferred) s

/-- HOLD_DEADLINE of the hold with this id (R50), with the drain test (R93). -/
def execHoldDeadline (t : Moment) (holdId : Num2Field) (s : State) : Answer :=
  event t (fun s => (whenEnrolled s fun st => s.holdDeadline st holdId.toNat).drainTest) s

/-- PEER_ABSENT_TIMEOUT of this peer (R121). -/
def execPeerAbsentTimeout (t : Moment) (peer : BitVec 8) (s : State) : Answer :=
  event t (fun s => s.peerAbsent peer.toNat) s

end Sys2Proof.Machine
end

