-- ==== Sys2Proof/Machine/Dispatch.lean ====
section
/-! DEFINITION. The meaning of every command, one arm per constructor of Instr. -/

namespace Sys2Proof.Machine

/-- The effect of a command on everything but the queue. -/
def exec (i : Instr) (s : State) : Host.Outcome State Fault Refusal :=
  match i with
  | .enrol t token settings => Sys2Proof.Machine.execEnrol t token settings s
  | .join t token => Sys2Proof.Machine.execJoin t token s
  | .drain t token => Sys2Proof.Machine.execDrain t token s
  | .leave t token => Sys2Proof.Machine.execLeave t token s
  | .issue t token amount validity => Sys2Proof.Machine.execIssue t token amount validity s
  | .load t token ref amount => Sys2Proof.Machine.execLoad t token ref amount s
  | .cashout t token ref => Sys2Proof.Machine.execCashout t token ref s
  | .freeze t token ref => Sys2Proof.Machine.execFreeze t token ref s
  | .thaw t token ref => Sys2Proof.Machine.execThaw t token ref s
  | .enquire t token ref => Sys2Proof.Machine.execEnquire t token ref s
  | .authorize t token ref asked least => Sys2Proof.Machine.execAuthorize t token ref asked least s
  | .capture t token ref holdId amount => Sys2Proof.Machine.execCapture t token ref holdId amount s
  | .void t token ref holdId => Sys2Proof.Machine.execVoid t token ref holdId s
  | .refund t token ref trail amount => Sys2Proof.Machine.execRefund t token ref trail amount s
  | .closeDay t token => Sys2Proof.Machine.execCloseDay t token s
  | .report t token => Sys2Proof.Machine.execReport t token s
  | .setRate t token rate fee effective => Sys2Proof.Machine.execSetRate t token rate fee effective s
  | .readStatement t token => Sys2Proof.Machine.execReadStatement t token s
  | .readResult t token => Sys2Proof.Machine.execReadResult t token s
  | .peerStatus t token peer => Sys2Proof.Machine.execPeerStatus t token peer s
  | .clearPeer t token peer => Sys2Proof.Machine.execClearPeer t token peer s
  | .adjust t token peer dR dL => Sys2Proof.Machine.execAdjust t token peer dR dL s
  | .status t token => Sys2Proof.Machine.execStatus t token s
  | .clearMonitor t token selection => Sys2Proof.Machine.execClearMonitor t token selection s
  | .restart t token => Sys2Proof.Machine.execRestart t token s
  | .wipe t token => Sys2Proof.Machine.execWipe t token s
  | .malformedBlock t mosi => Sys2Proof.Machine.execMalformedBlock t mosi s
  | .writeRefusedBusy t mosi => Sys2Proof.Machine.execWriteRefusedBusy t mosi s
  | .responseRead t mosi => Sys2Proof.Machine.execResponseRead t mosi s
  | .askReceived t h ref asked least => Sys2Proof.Machine.execAskReceived t h ref asked least s
  | .takeReceived t h holdId serial amount => Sys2Proof.Machine.execTakeReceived t h holdId serial amount s
  | .freeReceived t h holdId serial => Sys2Proof.Machine.execFreeReceived t h holdId serial s
  | .creditReceived t h serial trail amount => Sys2Proof.Machine.execCreditReceived t h serial trail amount s
  | .grantReceived t h holdId granted residual available balance expiry => Sys2Proof.Machine.execGrantReceived t h holdId granted residual available balance expiry s
  | .takenReceived t h trail captured released booking balance => Sys2Proof.Machine.execTakenReceived t h trail captured released booking balance s
  | .freedReceived t h released balance available => Sys2Proof.Machine.execFreedReceived t h released balance available s
  | .creditedReceived t h trail amount remaining booking balance => Sys2Proof.Machine.execCreditedReceived t h trail amount remaining booking balance s
  | .refuseReceived t h refusedKind reason value => Sys2Proof.Machine.execRefuseReceived t h refusedKind reason value s
  | .tallyReceived t h cycle lifeRs lifeLs marks => Sys2Proof.Machine.execTallyReceived t h cycle lifeRs lifeLs marks s
  | .checkReceived t h => Sys2Proof.Machine.execCheckReceived t h s
  | .beaconReceived t h => Sys2Proof.Machine.execBeaconReceived t h s
  | .frameClash t f => Sys2Proof.Machine.execFrameClash t f s
  | .malformedFrame t f => Sys2Proof.Machine.execMalformedFrame t f s
  | .unreadableHeader t f => Sys2Proof.Machine.execUnreadableHeader t f s
  | .headerOnlyFrame t f => Sys2Proof.Machine.execHeaderOnlyFrame t f s
  | .badFrame t heard => Sys2Proof.Machine.execBadFrame t heard s
  | .fragment t heard => Sys2Proof.Machine.execFragment t heard s
  | .lineIdle t => Sys2Proof.Machine.execLineIdle t s
  | .lineBusy t => Sys2Proof.Machine.execLineBusy t s
  | .answerStart t => Sys2Proof.Machine.execAnswerStart t s
  | .requestStart t => Sys2Proof.Machine.execRequestStart t s
  | .spacingExpiry t => Sys2Proof.Machine.execSpacingExpiry t s
  | .collision t => Sys2Proof.Machine.execCollision t s
  | .frameSent t => Sys2Proof.Machine.execFrameSent t s
  | .requestQueueFill t => Sys2Proof.Machine.execRequestQueueFill t s
  | .beaconTime t => Sys2Proof.Machine.execBeaconTime t s
  | .listenEnd t => Sys2Proof.Machine.execListenEnd t s
  | .sendFailedExpiry t => Sys2Proof.Machine.execSendFailedExpiry t s
  | .answerDroppedExpiry t => Sys2Proof.Machine.execAnswerDroppedExpiry t s
  | .linkNoiseExpiry t => Sys2Proof.Machine.execLinkNoiseExpiry t s
  | .drainComplete t => Sys2Proof.Machine.execDrainComplete t s
  | .replyTimeout t tag => Sys2Proof.Machine.execReplyTimeout t tag s
  | .resultQueueFill t => Sys2Proof.Machine.execResultQueueFill t s
  | .pendingClose t => Sys2Proof.Machine.execPendingClose t s
  | .sweepStep t => Sys2Proof.Machine.execSweepStep t s
  | .sealWindowExpiry t => Sys2Proof.Machine.execSealWindowExpiry t s
  | .makeSeal t => Sys2Proof.Machine.execSeal t s
  | .deferredSealCompletion t => Sys2Proof.Machine.execDeferredSealCompletion t s
  | .holdDeadline t holdId => Sys2Proof.Machine.execHoldDeadline t holdId s
  | .peerAbsentTimeout t peer => Sys2Proof.Machine.execPeerAbsentTimeout t peer s
  | .coldStart t => Sys2Proof.Machine.execColdStart t s
  | .warmStart t => Sys2Proof.Machine.execWarmStart t s
  | .nrst t low => Sys2Proof.Machine.execNrst t low s
  | .powerLoss t => Sys2Proof.Machine.execPowerLoss t s
  | .retentionLoss t => Sys2Proof.Machine.execRetentionLoss t s

end Sys2Proof.Machine
end

