-- ==== Sys2Proof/Safety.lean ====
section
/-! DEFINITION. The terms claims are stated in: which parts of State a step may change, when a till command or a
frame is taken, the state a taken till command leaves, and how the fields of blocks and frames are spelled in bytes. -/

namespace Sys2Proof.Machine

/-- The parts of State that a frame speaks of. -/
inductive Part where
  | now | draws | place | queue | power | retention | attn | lde | ltx | miso | port | results | settings
  | cards | serials | money | cursor | holds | trail | exchanges
  | station | answers | requests | transmitter | beacons | wanted | listen | heldLink | badFrames | sendFailed
  | answerDropped | clash
  | peers | cycles | statements | enables | latched | saturation
  deriving DecidableEq, Repr

/-- Two states agree on a part. -/
def Part.same : Part → State → State → Prop
  | .now, s, t => t.now = s.now
  | .draws, s, t => t.draws = s.draws
  | .place, s, t => t.seq = s.seq
  | .queue, s, t => t.pending = s.pending
  | .power, s, t => t.power = s.power
  | .retention, s, t => t.retention = s.retention
  | .attn, s, t => t.pins.attn = s.pins.attn
  | .lde, s, t => t.pins.lde = s.pins.lde
  | .ltx, s, t => t.pins.ltx = s.pins.ltx
  | .miso, s, t => t.pins.miso = s.pins.miso
  | .port, s, t => (t.tp.state, t.tp.response, t.tp.busy) = (s.tp.state, s.tp.response, s.tp.busy)
  | .results, s, t => t.tp.results = s.tp.results
  | .settings, s, t => t.tp.settings = s.tp.settings
  | .cards, s, t => t.ct.cards = s.ct.cards
  | .serials, s, t => t.ct.serialNext = s.ct.serialNext
  | .money, s, t =>
    (t.ct.float, t.ct.life, t.ct.openOwn, t.ct.sealOwn) = (s.ct.float, s.ct.life, s.ct.openOwn, s.ct.sealOwn)
  | .cursor, s, t => t.ct.cursor = s.ct.cursor
  | .holds, s, t => t.ht = s.ht
  | .trail, s, t => t.tr = s.tr
  | .exchanges, s, t => t.xt = s.xt
  | .station, s, t => t.lc.station = s.lc.station
  | .answers, s, t => t.lc.answerQ = s.lc.answerQ
  | .requests, s, t => t.lc.requestQ = s.lc.requestQ
  | .transmitter, s, t => (t.lc.tx, t.lc.line, t.lc.lastRequest) = (s.lc.tx, s.lc.line, s.lc.lastRequest)
  | .beacons, s, t => (t.lc.beaconAt, t.lc.heldBeacon) = (s.lc.beaconAt, s.lc.heldBeacon)
  | .wanted, s, t => t.lc.wanted = s.lc.wanted
  | .listen, s, t => t.lc.listenEnd = s.lc.listenEnd
  | .heldLink, s, t => t.lc.heldLink = s.lc.heldLink
  | .badFrames, s, t => t.lc.badFrames = s.lc.badFrames
  | .sendFailed, s, t => t.lc.sendFailed = s.lc.sendFailed
  | .answerDropped, s, t => t.lc.answerDropped = s.lc.answerDropped
  | .clash, s, t => t.lc.clash = s.lc.clash
  | .peers, s, t => t.pt = s.pt
  | .cycles, s, t => t.cc = s.cc
  | .statements, s, t => t.su = s.su
  | .enables, s, t => (t.mu.detect, t.mu.latch, t.mu.stopOnError) = (s.mu.detect, s.mu.latch, s.mu.stopOnError)
  | .latched, s, t => t.mu.latched = s.mu.latched
  | .saturation, s, t => t.mu.saturation = s.mu.saturation

/-- Going from `s` to `t` changes no part but those of `ps`. -/
def ChangesOnly (ps : List Part) (s t : State) : Prop := ∀ p, p ∉ ps → p.same s t

/-- The parts the end of every step forms afresh: the latched flags and the output pins ATTN, LDE and LTX (R171, R176,
R190). -/
def settled : List Part := [.latched, .attn, .lde, .ltx]

/-- The commands in which several operations of R86, R144 and R148 may follow one another, so that a condition may come and
go within the step: frames, transfers that may hold any command, and what may make a close or a seal. -/
def mayLatchWithin : Instr → Bool
  | .askReceived .. | .takeReceived .. | .freeReceived .. | .creditReceived .. | .grantReceived .. | .takenReceived ..
  | .freedReceived .. | .creditedReceived .. | .refuseReceived .. | .tallyReceived .. | .checkReceived ..
  | .beaconReceived .. | .frameClash .. | .malformedFrame .. | .unreadableHeader .. | .headerOnlyFrame .. | .badFrame ..
  | .fragment .. => true
  | .malformedBlock .. | .writeRefusedBusy .. | .responseRead .. => true
  | .closeDay .. | .readStatement .. | .pendingClose _ | .sweepStep _ | .sealWindowExpiry _ | .makeSeal _
  | .deferredSealCompletion _ => true
  | _ => false

/-- The commands that may clear a latched flag: CLEAR_MONITOR, the starts, and the transfers that may hold them (R172). -/
def mayClearLatches : Instr → Bool
  | .clearMonitor .. | .restart .. | .wipe .. | .coldStart _ | .warmStart _ | .nrst .. | .malformedBlock ..
  | .writeRefusedBusy .. | .responseRead .. => true
  | _ => false

/-- The part is enrolled with settings `st`, has main power and its port is IDLE: a written command is taken
(R179, R184). -/
abbrev tillReady (s : State) (st : Settings) : Prop :=
  s.power = true ∧ s.tp.settings = some st ∧ s.tp.state = .idle

/-- A till command has begun at moment `t`: the clock has come to it and the state byte IDLE has been shifted out
(R179). -/
def begun (s : State) (t : Moment) : State :=
  { s with now := max s.now t, pins := { s.pins with miso := [0x00#8] } }

/-- The response of a command stands in the command buffer and the port is READY (R179, R180). -/
def answered (s : State) (token : Token) (status : Status) (values : List Value) : State :=
  { s with tp := { s.tp with state := .ready, response := some ⟨status, token, s.tp.busy, values⟩ } }

/-- The part is enrolled, has main power and does not drive the line in ACTIVE or DRAINING: a good frame is heard and
its body is read (R85, R86). -/
abbrev lineReady (s : State) (st : Settings) : Prop :=
  s.power = true ∧ s.tp.settings = some st ∧ s.lc.onLine = true ∧ s.lc.isDriving = false

/-- A frame with raw header `h` has a readable header, `g` as read, and comes from another station (R86). -/
abbrev fromPeer (st : Settings) (h : RxHeader) (g : Header) : Prop := readHeader h = some g ∧ g.source ≠ st.station

/-- It is addressed to this station, and its tag is one a request or an answer carries (R86, R87). -/
abbrev addressed (st : Settings) (h : RxHeader) (g : Header) : Prop :=
  fromPeer st h g ∧ g.dest = st.station ∧ st.station ≠ 0 ∧ g.tag ≠ 0

/-- The state in which the body of such a frame is read: the clock has come to `t`, its source has been heard, a later
cycle of its sender has asked for a close, and the monitor has followed (R86 steps 2 and 3, R121, R141). -/
def heardFrom (s : State) (st : Settings) (t : Moment) (g : Header) : State :=
  relatch (((s.atMoment t).hearPeer g).catchUpCheck st g.cycle)

/-- The state after one change to the card record of serial `n`, with new aggregate figures of the Card Table. -/
def withCard (s : State) (n : Nat) (f : Card → Card) (float : Int) (life : LifeTotals) (own : OwnTotals) (sat : Bool) :
    State :=
  { s with
    ct := { s.ct with
      cards := s.ct.cards.map fun c => if c.serial == n then f c else c,
      float := float, life := life, openOwn := own },
    mu := { s.mu with saturation := s.mu.saturation || sat } }

/-- The state after the capture of `x` from the OPEN record `h` by redeemer `asker` with tag `tag`, its entry made in
`room`: trail, card, float, lifetime captures, hold record, counters and end list (R53 step 3, R26, R39, R62, R64); the
bookings to U or L are not in it. -/
def captured (u : State) (h : Hold) (room : List TrailEntry) (tag : Option Nat) (x : Nat) : State :=
  { u with
    tr :=
      { entries := room ++
          [{ number := u.tr.nextNumber, serial := h.serial, redeemer := h.asker, captureTag := tag, captured := x,
             refunded := 0, booking := u.cc.openCycle, lastCredit := none }]
        nextNumber := if u.tr.nextNumber = 99999999 then 1 else u.tr.nextNumber + 1 }
    ct := { u.ct with
      cards := u.ct.cards.map fun c => if c.serial == h.serial then
        { c with
          balance := c.balance - x, held := c.held - h.amount, openHolds := c.openHolds - 1,
          lastChange := u.cc.openCycle } else c
      float := u.ct.float - x
      life := { u.ct.life with captures := u.ct.life.captures.acc x } }
    ht := { u.ht with
      holds := u.ht.holds.map fun y => if y.id == h.id then
        { y with
          state := .captured, captureTag := tag, captured := some x, trailNo := some u.tr.nextNumber,
          booking := some u.cc.openCycle, deadline := none } else y
      openCount := u.ht.openCount - 1
      endList := u.ht.endList ++ [h.id] } }

/-- The state after the OPEN record `h` has ended without capture as `goal`: card, hold record, counters and end list
(R50, R56, R26). The peer counters and the exposure are not in it. -/
def released (u : State) (h : Hold) (goal : HoldState) : State :=
  { u with
    ct := { u.ct with
      cards := u.ct.cards.map fun c => if c.serial == h.serial then
        { c with held := c.held - h.amount, openHolds := c.openHolds - 1 } else c }
    ht := { u.ht with
      holds := u.ht.holds.map fun y => if y.id == h.id then { y with state := goal, deadline := none } else y
      openCount := u.ht.openCount - 1
      endList := u.ht.endList ++ [h.id] } }

/-- The command of a written block as the command of the table it is. -/
def Command.instr (t : Moment) (token : Token) : Command → Instr
  | .enrol f => .enrol t token f
  | .join => .join t token
  | .drain => .drain t token
  | .leave => .leave t token
  | .issue a v => .issue t token a v
  | .load r a => .load t token r a
  | .cashout r => .cashout t token r
  | .freeze r => .freeze t token r
  | .thaw r => .thaw t token r
  | .enquire r => .enquire t token r
  | .authorize r a l => .authorize t token r a l
  | .capture r i a => .capture t token r i a
  | .void r i => .void t token r i
  | .refund r n a => .refund t token r n a
  | .closeDay => .closeDay t token
  | .report => .report t token
  | .setRate r f e => .setRate t token r f e
  | .readStatement => .readStatement t token
  | .readResult => .readResult t token
  | .peerStatus p => .peerStatus t token p
  | .clearPeer p => .clearPeer t token p
  | .adjust p r l => .adjust t token p r l
  | .status => .status t token
  | .clearMonitor x => .clearMonitor t token x
  | .restart => .restart t token
  | .wipe => .wipe t token

/-! ### Exchanges set aside (R110, R118) -/

/-- A CAPTURE or REFUND that is QUEUED or WAITING: it becomes UNSURE. -/
def becomesUnsure (e : Exchange) : Bool :=
  (e.state == .queued || e.state == .waiting) &&
    (match e.params with | .capture .. => true | .refund .. => true | _ => false)

/-- A HOLD, PROBE or VOID that is QUEUED or WAITING: it ends NO_ANSWER. -/
def endsUnanswered (e : Exchange) : Bool :=
  (e.state == .queued || e.state == .waiting) &&
    (match e.params with | .capture .. => false | .refund .. => false | _ => true)

/-- The exchanges after every one under way has been ended or set aside, the first result taking place `n`: UNSURE and
DONE ones are kept, and no resend is wanted (R110, R118). -/
def asideExchanges (n : Nat) : List Exchange → List Exchange
  | [] => []
  | e :: es =>
    let reported (state : ExState) (o : ExOutcome) : Exchange :=
      { e with
        state := state, replyDeadline := none, resendWanted := false,
        result := some ⟨.exchange e.tag (e.token.getD 0) e.params e.home e.serial false o, n⟩ }
    if becomesUnsure e then reported .unsure (.unsure e.sends) :: asideExchanges (n + 1) es
    else if endsUnanswered e then
      if e.internal then asideExchanges n es else reported .done .noAnswer :: asideExchanges (n + 1) es
    else { e with resendWanted := false } :: asideExchanges n es

/-- The entries of those that ended without an answer, for the ended list (R101, R110). -/
def asideEnded (es : List Exchange) : List EndedEntry :=
  (es.filter endsUnanswered).map fun e =>
    { home := e.home, tag := e.tag, kind := e.params.kind, internal := e.internal, serial := e.serial,
      holdId := e.params.holdId?, trailNo := none, ending := .noAnswer }

/-- The number of results that become pending (R110). -/
def asideResults (es : List Exchange) : Nat :=
  es.countP fun e => becomesUnsure e || (endsUnanswered e && !e.internal)

/-! ### How fields are spelled -/

/-- The `k` bytes of a binary number, high byte first (R97, R180). -/
def spellNum (k n : Nat) : List Byte := (List.range k).reverse.map fun i => BitVec.ofNat 8 (n / 256 ^ i)

/-- The `k` bytes of the `2 * k` BCD digits of a number, most significant first (R97). -/
def spellDigits (k n : Nat) : List Byte :=
  (List.range k).reverse.map fun i => BitVec.ofNat 8 (16 * (n / 10 ^ (2 * i + 1) % 10) + n / 10 ^ (2 * i) % 10)

/-- A sign byte, then twelve BCD digits: the byte `plus` for plus and `plus + 1` for minus (R97, R180). -/
def spellSigned (plus : Nat) (v : Int) : List Byte :=
  BitVec.ofNat 8 (if v < 0 then plus + 1 else plus) :: spellDigits 6 v.natAbs

/-- The eleven digits of a card reference, the check digit last, then the filler nibble F (R13, R97). -/
def spellRef (home n : Nat) : List Byte :=
  spellDigits 5 (home * 10 ^ 8 + n) ++ [BitVec.ofNat 8 (16 * checkDigit home n + 15)]

/-- Bytes with their CRC behind them, high byte first (R78). -/
def withCrc (bytes : List Byte) : List Byte := bytes ++ spellNum 2 (crc16 bytes).toNat

/-- The code of a command (R180). -/
def Command.code : Command → Byte
  | .enrol _ => 0x01 | .join => 0x02 | .drain => 0x03 | .leave => 0x04 | .issue .. => 0x05 | .load .. => 0x06
  | .cashout _ => 0x07 | .freeze _ => 0x08 | .thaw _ => 0x09 | .enquire _ => 0x0A | .authorize .. => 0x0B
  | .capture .. => 0x0C | .void .. => 0x0D | .closeDay => 0x0E | .report => 0x0F | .setRate .. => 0x10
  | .readStatement => 0x11 | .readResult => 0x12 | .peerStatus _ => 0x13 | .clearPeer _ => 0x14 | .adjust .. => 0x15
  | .status => 0x16 | .clearMonitor _ => 0x17 | .restart => 0x18 | .wipe => 0x19 | .refund .. => 0x1A

/-- The parameter bytes of a command, its fields in the order of the code table (R180) and of R185. -/
def Command.params : Command → List Byte
  | .enrol f =>
    spellNum 1 f.station.toNat ++ spellNum 2 f.cardArea.toNat ++ spellNum 2 f.holdArea.toNat ++
      spellNum 2 f.trailArea.toNat ++ spellNum 7 f.cardCeiling.toNat ++ spellNum 7 f.floatLimit.toNat ++
      spellNum 7 f.exposureLimit.toNat ++ spellNum 7 f.exposureBand.toNat ++ spellNum 2 f.holdLifetime.toNat ++
      spellNum 2 f.sealWindow.toNat ++ spellNum 1 f.requestSpacing.toNat ++ spellNum 1 f.retention.toNat ++
      spellNum 2 f.initialRate.toNat ++ spellNum 1 f.initialFee.toNat ++ spellNum 2 f.detectEnables.toNat ++
      spellNum 2 f.latchEnables.toNat ++ spellNum 1 f.stopOnError.toNat
  | .issue amount validity => spellNum 7 amount.toNat ++ spellNum 3 validity.toNat
  | .load ref amount => spellNum 6 ref.toNat ++ spellNum 7 amount.toNat
  | .cashout ref => spellNum 6 ref.toNat
  | .freeze ref => spellNum 6 ref.toNat
  | .thaw ref => spellNum 6 ref.toNat
  | .enquire ref => spellNum 6 ref.toNat
  | .authorize ref asked least => spellNum 6 ref.toNat ++ spellNum 7 asked.toNat ++ spellNum 7 least.toNat
  | .capture ref holdId amount => spellNum 6 ref.toNat ++ spellNum 2 holdId.toNat ++ spellNum 7 amount.toNat
  | .void ref holdId => spellNum 6 ref.toNat ++ spellNum 2 holdId.toNat
  | .refund ref trail amount => spellNum 6 ref.toNat ++ spellNum 4 trail.toNat ++ spellNum 7 amount.toNat
  | .setRate rate fee effective => spellNum 2 rate.toNat ++ spellNum 1 fee.toNat ++ spellNum 3 effective.toNat
  | .peerStatus peer => spellNum 1 peer.toNat
  | .clearPeer peer => spellNum 1 peer.toNat
  | .adjust peer dR dL => spellNum 1 peer.toNat ++ spellNum 7 dR.toNat ++ spellNum 7 dL.toNat
  | .clearMonitor selection => spellNum 2 selection.toNat
  | .join | .drain | .leave | .closeDay | .report | .readStatement | .readResult | .status | .restart | .wipe => []

/-- The command block of a command: code, till token, parameter length, parameters, CRC (R180). -/
def Command.block (token : Token) (c : Command) : List Byte :=
  withCrc (c.code :: spellNum 4 token.toNat ++ spellNum 1 c.params.length ++ c.params)

/-- The bytes of a raw body, its fields in the order of R98. -/
def RawBody.bytes : RawBody → List Byte
  | .beacon | .check => []
  | .ask ref asked least => spellNum 6 ref.toNat ++ spellNum 7 asked.toNat ++ spellNum 7 least.toNat
  | .grant holdId granted residual available balance expiry =>
    spellNum 2 holdId.toNat ++ spellNum 7 granted.toNat ++ spellNum 7 residual.toNat ++
      spellNum 7 available.toNat ++ spellNum 7 balance.toNat ++ spellNum 3 expiry.toNat
  | .take holdId serial amount => spellNum 2 holdId.toNat ++ spellNum 4 serial.toNat ++ spellNum 7 amount.toNat
  | .taken trail captured released booking balance =>
    spellNum 4 trail.toNat ++ spellNum 7 captured.toNat ++ spellNum 7 released.toNat ++ spellNum 3 booking.toNat ++
      spellNum 7 balance.toNat
  | .free holdId serial => spellNum 2 holdId.toNat ++ spellNum 4 serial.toNat
  | .freed released balance available =>
    spellNum 7 released.toNat ++ spellNum 7 balance.toNat ++ spellNum 7 available.toNat
  | .credit serial trail amount => spellNum 4 serial.toNat ++ spellNum 4 trail.toNat ++ spellNum 7 amount.toNat
  | .credited trail amount remaining booking balance =>
    spellNum 4 trail.toNat ++ spellNum 7 amount.toNat ++ spellNum 7 remaining.toNat ++ spellNum 3 booking.toNat ++
      spellNum 7 balance.toNat
  | .refuse refusedKind reason value =>
    spellNum 1 refusedKind.toNat ++ spellNum 1 reason.toNat ++ spellNum 7 value.toNat
  | .tally cycle lifeRs lifeLs marks =>
    spellNum 3 cycle.toNat ++ spellNum 7 lifeRs.toNat ++ spellNum 7 lifeLs.toNat ++ spellNum 1 marks.toNat

/-! ### The fields a frame can carry -/

/-- An amount that the twelve digits can hold (R1, R97). -/
def amountFits (v : Int) : Prop := v.natAbs ≤ Config.amountMax

/-- The fields of a body lie within what their types and notes of R98 allow. -/
def Body.fitsFields : Body → Prop
  | .beacon => True
  | .ask home serial asked least =>
    1 ≤ home ∧ home ≤ Config.stationMax ∧ 1 ≤ serial ∧ serial ≤ Config.serialMax ∧ amountFits asked ∧
      least ≤ asked ∧ (asked ≠ 0 → least ≠ 0)
  | .grant holdId granted residual available balance expiry =>
    holdId ≤ Config.idMax ∧ amountFits granted ∧ amountFits residual ∧ amountFits available ∧ amountFits balance ∧
      ∀ c, expiry = some c → 1 ≤ c ∧ c ≤ Config.countMax
  | .take holdId serial amount =>
    1 ≤ holdId ∧ holdId ≤ Config.idMax ∧ 1 ≤ serial ∧ serial ≤ Config.serialMax ∧ amountFits amount
  | .taken trail captured released booking balance =>
    1 ≤ trail ∧ trail ≤ Config.serialMax ∧ amountFits captured ∧ amountFits released ∧ 1 ≤ booking ∧
      booking ≤ Config.countMax ∧ amountFits balance
  | .free holdId serial => 1 ≤ holdId ∧ holdId ≤ Config.idMax ∧ 1 ≤ serial ∧ serial ≤ Config.serialMax
  | .freed released balance available => amountFits released ∧ amountFits balance ∧ amountFits available
  | .credit serial trail amount =>
    1 ≤ serial ∧ serial ≤ Config.serialMax ∧ 1 ≤ trail ∧ trail ≤ Config.serialMax ∧ amountFits amount
  | .credited trail amount remaining booking balance =>
    1 ≤ trail ∧ trail ≤ Config.serialMax ∧ amountFits amount ∧ amountFits remaining ∧ 1 ≤ booking ∧
      booking ≤ Config.countMax ∧ amountFits balance
  | .refuse refusedKind _ value => refusedKind ∈ refusableKinds ∧ amountFits value
  | .tally cycle lifeRs lifeLs =>
    1 ≤ cycle ∧ cycle ≤ Config.countMax ∧ amountFits lifeRs.val ∧ amountFits lifeLs.val
  | .check => True

/-! ### Invariants -/

/-- While no lifetime own-card total carries a mark, the float is loads less captures plus refunds less lapses less
cash-outs (R28). -/
def floatBalanced (s : State) : Prop :=
  s.ct.life.loads.mark = false → s.ct.life.captures.mark = false → s.ct.life.refunds.mark = false →
    s.ct.life.lapses.mark = false → s.ct.life.cashouts.mark = false →
    s.ct.float = s.ct.life.loads.val - s.ct.life.captures.val + s.ct.life.refunds.val - s.ct.life.lapses.val -
      s.ct.life.cashouts.val

/-- Every part of the sealing set stands together: in STEADY none of it, in every other phase all of it (every peer's
figures, none for the own number), numbered below the open cycle; the cursor is present in SWEEPING alone; a pending
target lies above the open cycle; and a part that is not enrolled is STEADY (R34, R124, R137 to R139). -/
def sealingWhole (s : State) : Prop :=
  (s.cc.phase = .steady ↔ s.cc.sealing = none) ∧ (s.ct.sealOwn = none ↔ s.cc.sealing = none) ∧
    (∀ e ∈ s.pt, e.sealF = none ↔ s.cc.sealing = none ∨ e.peer = s.own) ∧
    (∀ x, s.cc.sealing = some x → x.cycle < s.cc.openCycle) ∧
    (s.ct.cursor ≠ none ↔ s.cc.phase = .sweeping) ∧
    (∀ u, s.cc.pendingTarget = some u → s.cc.openCycle < u) ∧
    (s.cc.phase = .steady → s.cc.pendingTarget = none) ∧
    (s.tp.settings = none → s.cc.phase = .steady)

/-- Queues, lists and tables stay within the room the spec gives them, the schedule is in ascending order, the slots
are two, the tags of the exchanges are all different, and a part that is not enrolled holds no record (R17, R63, R83,
R84, R101, R102, R155, R159, R179, R182, R184). -/
def withinRoom (s : State) : Prop :=
  s.lc.answerQ.length ≤ 16 ∧ s.lc.requestQ.length ≤ 16 ∧ s.xt.exchanges.length ≤ 32 ∧ s.xt.ended.length ≤ 64 ∧
    s.tp.results.length ≤ 32 ∧ s.tp.busy ≤ 255 ∧ s.cc.schedule.length ≤ 2 ∧
    (s.xt.exchanges.map Exchange.tag).Nodup ∧ 1 ≤ s.xt.nextTag ∧ s.xt.nextTag ≤ Config.idMax ∧
    s.cc.schedule.Pairwise (fun a b => a.effective < b.effective) ∧ (s.su.slots.map Slot.no).Nodup ∧
    (∀ st, s.tp.settings = some st → s.ct.cards.length ≤ st.cardArea ∧ s.tr.entries.length ≤ st.trailArea) ∧
    (s.tp.settings = none →
      s.ct.cards = [] ∧ s.ht.holds = [] ∧ s.tr.entries = [] ∧ s.xt.exchanges = [] ∧ s.su.slots = [] ∧
        s.lc.station = .offline)

/-- The OPEN hold records a test picks. -/
def openHolds (s : State) (p : Hold → Bool) : List Hold := s.ht.holds.filter fun h => h.state == .held && p h

/-- A card record agrees with the OPEN holds on it: its held is their sum, its open holds their number, at most 4;
held ≤ balance ≤ card ceiling; with an OPEN hold it is ACTIVE or FROZEN, and CLOSED or LAPSED its balance is 0.00
(R16). -/
def cardAgrees (s : State) (c : Card) : Prop :=
  c.held = ((openHolds s fun h => h.serial == c.serial).map Hold.amount).sum ∧
    c.openHolds = (openHolds s fun h => h.serial == c.serial).length ∧ c.openHolds ≤ 4 ∧ c.held ≤ c.balance ∧
    (∀ st, s.tp.settings = some st → c.balance ≤ st.cardCeiling) ∧
    (0 < c.openHolds → c.state = .active ∨ c.state = .frozen) ∧
    (c.state = .closed ∨ c.state = .lapsed → c.balance = 0)

/-- The Card Table and the Hold Table agree (R16, R17, R21, R39, R41): the cards stand in ascending serial below the
serial counter; every card agrees with its holds; every OPEN hold is on a card of the table; hold ids are all different
and within their range; the end list names each ended record once; the counters and the peer held sums are those of
the OPEN records; and the table has at most H records. -/
def tablesAgree (s : State) : Prop :=
  (s.ct.cards.map Card.serial).Pairwise (· < ·) ∧
    (∀ c ∈ s.ct.cards, ∀ n, s.ct.serialNext = some n → c.serial < n) ∧ (∀ c ∈ s.ct.cards, cardAgrees s c) ∧
    (∀ h ∈ openHolds s fun _ => true, ∃ c ∈ s.ct.cards, c.serial = h.serial) ∧
    (s.ht.holds.map Hold.id).Nodup ∧ (∀ h ∈ s.ht.holds, 1 ≤ h.id ∧ h.id ≤ Config.idMax) ∧
    1 ≤ s.ht.nextId ∧ s.ht.nextId ≤ Config.idMax ∧
    s.ht.endList.Nodup ∧ (∀ i, i ∈ s.ht.endList ↔ ∃ h ∈ s.ht.holds, h.id = i ∧ h.state ≠ .held) ∧
    s.ht.openCount = (openHolds s fun _ => true).length ∧
    s.ht.peerOpenCount = (openHolds s fun h => h.asker != s.own).length ∧
    (∀ x ∈ s.ht.peerHeld,
      x.sum = ((openHolds s fun h => h.asker == x.peer && h.asker != s.own).map Hold.amount).sum) ∧
    (∀ st, s.tp.settings = some st → s.ht.holds.length ≤ st.holdArea ∧ st.holdArea ≤ 1024) ∧
    (s.tp.settings = none → s.ht.holds = [] ∧ s.ct.cards = [])

end Sys2Proof.Machine
end

