-- ==== Sys2Proof/WellFormed.lean ====
section
/-! DEFINITION. Well-formed commands: the bounds the spec puts on what can reach the part, beyond the widths of the
fields. -/

namespace Sys2Proof

/-- The body of a good frame has at most 40 bytes (R76, R96). -/
def RxFrame.wellFormed (f : RxFrame) : Bool := decide (f.body.length ≤ 40)

/-- What is heard of a frame is at most its 24 + 8 × 52 bits (R76). -/
def heardWellFormed (heard : List Bool) : Bool := decide (heard.length ≤ 440)

/-- A transfer has at least its first byte, the transfer kind (R179). -/
def transferWellFormed (mosi : List Byte) : Bool := !mosi.isEmpty

/-- A station number is 1 to 63 (R119). -/
def peerWellFormed (peer : BitVec 8) : Bool := decide (1 ≤ peer.toNat ∧ peer.toNat ≤ 63)

/-- A tag or hold id of a record is not 0 (R41, R102). -/
def idWellFormed (i : Num2Field) : Bool := decide (i.toNat ≠ 0)

/-- Well-formed commands. The fields of till commands and of received frames may hold anything: their tests are the
machine's (R87, R180, R185). -/
def Instr.wellFormed : Instr → Bool
  | .malformedBlock _ mosi | .writeRefusedBusy _ mosi | .responseRead _ mosi => transferWellFormed mosi
  | .frameClash _ f | .malformedFrame _ f | .unreadableHeader _ f | .headerOnlyFrame _ f => f.wellFormed
  | .badFrame _ heard | .fragment _ heard => heardWellFormed heard
  | .replyTimeout _ tag => idWellFormed tag
  | .holdDeadline _ holdId => idWellFormed holdId
  | .peerAbsentTimeout _ peer => peerWellFormed peer
  | _ => true

/-- The moment a command carries (log 1). -/
def Instr.moment : Instr → Moment
  | .enrol t .. => t
  | .join t .. => t
  | .drain t .. => t
  | .leave t .. => t
  | .issue t .. => t
  | .load t .. => t
  | .cashout t .. => t
  | .freeze t .. => t
  | .thaw t .. => t
  | .enquire t .. => t
  | .authorize t .. => t
  | .capture t .. => t
  | .void t .. => t
  | .refund t .. => t
  | .closeDay t .. => t
  | .report t .. => t
  | .setRate t .. => t
  | .readStatement t .. => t
  | .readResult t .. => t
  | .peerStatus t .. => t
  | .clearPeer t .. => t
  | .adjust t .. => t
  | .status t .. => t
  | .clearMonitor t .. => t
  | .restart t .. => t
  | .wipe t .. => t
  | .malformedBlock t .. => t
  | .writeRefusedBusy t .. => t
  | .responseRead t .. => t
  | .askReceived t .. => t
  | .takeReceived t .. => t
  | .freeReceived t .. => t
  | .creditReceived t .. => t
  | .grantReceived t .. => t
  | .takenReceived t .. => t
  | .freedReceived t .. => t
  | .creditedReceived t .. => t
  | .refuseReceived t .. => t
  | .tallyReceived t .. => t
  | .checkReceived t .. => t
  | .beaconReceived t .. => t
  | .frameClash t .. => t
  | .malformedFrame t .. => t
  | .unreadableHeader t .. => t
  | .headerOnlyFrame t .. => t
  | .badFrame t .. => t
  | .fragment t .. => t
  | .lineIdle t => t
  | .lineBusy t => t
  | .answerStart t => t
  | .requestStart t => t
  | .spacingExpiry t => t
  | .collision t => t
  | .frameSent t => t
  | .requestQueueFill t => t
  | .beaconTime t => t
  | .listenEnd t => t
  | .sendFailedExpiry t => t
  | .answerDroppedExpiry t => t
  | .linkNoiseExpiry t => t
  | .drainComplete t => t
  | .replyTimeout t .. => t
  | .resultQueueFill t => t
  | .pendingClose t => t
  | .sweepStep t => t
  | .sealWindowExpiry t => t
  | .makeSeal t => t
  | .deferredSealCompletion t => t
  | .holdDeadline t .. => t
  | .peerAbsentTimeout t .. => t
  | .coldStart t => t
  | .warmStart t => t
  | .nrst t .. => t
  | .powerLoss t => t
  | .retentionLoss t => t

/-- The same command at another moment. -/
def Instr.withMoment (m : Moment) : Instr → Instr
  | .enrol _ token settings => .enrol m token settings
  | .join _ token => .join m token
  | .drain _ token => .drain m token
  | .leave _ token => .leave m token
  | .issue _ token amount validity => .issue m token amount validity
  | .load _ token ref amount => .load m token ref amount
  | .cashout _ token ref => .cashout m token ref
  | .freeze _ token ref => .freeze m token ref
  | .thaw _ token ref => .thaw m token ref
  | .enquire _ token ref => .enquire m token ref
  | .authorize _ token ref asked least => .authorize m token ref asked least
  | .capture _ token ref holdId amount => .capture m token ref holdId amount
  | .void _ token ref holdId => .void m token ref holdId
  | .refund _ token ref trail amount => .refund m token ref trail amount
  | .closeDay _ token => .closeDay m token
  | .report _ token => .report m token
  | .setRate _ token rate fee effective => .setRate m token rate fee effective
  | .readStatement _ token => .readStatement m token
  | .readResult _ token => .readResult m token
  | .peerStatus _ token peer => .peerStatus m token peer
  | .clearPeer _ token peer => .clearPeer m token peer
  | .adjust _ token peer dR dL => .adjust m token peer dR dL
  | .status _ token => .status m token
  | .clearMonitor _ token selection => .clearMonitor m token selection
  | .restart _ token => .restart m token
  | .wipe _ token => .wipe m token
  | .malformedBlock _ mosi => .malformedBlock m mosi
  | .writeRefusedBusy _ mosi => .writeRefusedBusy m mosi
  | .responseRead _ mosi => .responseRead m mosi
  | .askReceived _ h ref asked least => .askReceived m h ref asked least
  | .takeReceived _ h holdId serial amount => .takeReceived m h holdId serial amount
  | .freeReceived _ h holdId serial => .freeReceived m h holdId serial
  | .creditReceived _ h serial trail amount => .creditReceived m h serial trail amount
  | .grantReceived _ h holdId granted residual available balance expiry => .grantReceived m h holdId granted residual available balance expiry
  | .takenReceived _ h trail captured released booking balance => .takenReceived m h trail captured released booking balance
  | .freedReceived _ h released balance available => .freedReceived m h released balance available
  | .creditedReceived _ h trail amount remaining booking balance => .creditedReceived m h trail amount remaining booking balance
  | .refuseReceived _ h refusedKind reason value => .refuseReceived m h refusedKind reason value
  | .tallyReceived _ h cycle lifeRs lifeLs marks => .tallyReceived m h cycle lifeRs lifeLs marks
  | .checkReceived _ h => .checkReceived m h
  | .beaconReceived _ h => .beaconReceived m h
  | .frameClash _ f => .frameClash m f
  | .malformedFrame _ f => .malformedFrame m f
  | .unreadableHeader _ f => .unreadableHeader m f
  | .headerOnlyFrame _ f => .headerOnlyFrame m f
  | .badFrame _ heard => .badFrame m heard
  | .fragment _ heard => .fragment m heard
  | .lineIdle _ => .lineIdle m
  | .lineBusy _ => .lineBusy m
  | .answerStart _ => .answerStart m
  | .requestStart _ => .requestStart m
  | .spacingExpiry _ => .spacingExpiry m
  | .collision _ => .collision m
  | .frameSent _ => .frameSent m
  | .requestQueueFill _ => .requestQueueFill m
  | .beaconTime _ => .beaconTime m
  | .listenEnd _ => .listenEnd m
  | .sendFailedExpiry _ => .sendFailedExpiry m
  | .answerDroppedExpiry _ => .answerDroppedExpiry m
  | .linkNoiseExpiry _ => .linkNoiseExpiry m
  | .drainComplete _ => .drainComplete m
  | .replyTimeout _ tag => .replyTimeout m tag
  | .resultQueueFill _ => .resultQueueFill m
  | .pendingClose _ => .pendingClose m
  | .sweepStep _ => .sweepStep m
  | .sealWindowExpiry _ => .sealWindowExpiry m
  | .makeSeal _ => .makeSeal m
  | .deferredSealCompletion _ => .deferredSealCompletion m
  | .holdDeadline _ holdId => .holdDeadline m holdId
  | .peerAbsentTimeout _ peer => .peerAbsentTimeout m peer
  | .coldStart _ => .coldStart m
  | .warmStart _ => .warmStart m
  | .nrst _ low => .nrst m low
  | .powerLoss _ => .powerLoss m
  | .retentionLoss _ => .retentionLoss m

end Sys2Proof
end

