-- ==== Sys2Proof/Certificates/Slice0/Obligations.lean ====
section
/-! DEFINITION. The statements for the provers. -/

open Sys2Proof Sys2Proof.Machine

/-! ### The machine -/

/-- A step runs the command at the front of the queue on the state with the queue's rest; on an empty queue the
block idles, which is the model's choice (log 2). -/
def Obligations.StepRunsFrontCommand : Prop :=
  (∀ (c : Instr) (rest : List Instr) (s : State),
      s.pending = c :: rest → step s = exec c { s with pending := rest }) ∧
    ∀ s : State, s.pending = [] → step s = .next s

/-- Every command answers a next state; it leaves the queue alone and sets the clock to the later of its own moment
and the clock (the clock is the model's, log 1). Without main power the part stops all work: every command but a rise of
main power and the loss of the retention mark only lets time pass (R190). -/
def Obligations.EveryCommandCompletes : Prop :=
  (∀ (i : Instr) (s : State), ∃ t, exec i s = .next t ∧ t.pending = s.pending ∧ t.now = max s.now i.moment) ∧
  ∀ (i : Instr) (s : State), s.power = false → (∀ t, i ≠ .coldStart t) → (∀ t, i ≠ .warmStart t) →
    (∀ t, i ≠ .retentionLoss t) → exec i s = .next (finish { s with now := max s.now i.moment })

/-- After every command of a powered part, ATTN, LDE, LTX and the latched flags stand as R176, R190, R76 and R172 form
them: a flag is set while its condition is live and both its enables are on, and it is set by nothing else. Only a
CLEAR_MONITOR or a start clears one (R172, R173, R177). A condition that was live between two operations of one step
leaves its flag set too: the commands of `mayLatchWithin`, whose operations end in `relatch`. Without main power LDE is
low (R190) and ATTN and LTX are released (the model's choice, log 14). The live conditions are those of R171 in its
order, bit i-1 for source i: R92, R6, R85 over the bad frames that still count (until when: log 19), R82, R83, R66, R39,
R145, R164 and the four of R135; the shown states, the error and warning flags and the stopped condition are those of
R172, R174 and R175. -/
def Obligations.MonitorAndPinsSettled : Prop :=
  (∀ s : State,
    let live (k : Nat) : Prop := (liveBits s).getLsbD k = true
    let shown (k : Nat) : Prop := (shownBits s).getLsbD k = true
    let current (c : Nat) : Prop := c = s.cc.openCycle ∨ ∃ x, s.cc.sealing = some x ∧ c = x.cycle
    (live 0 ↔ s.lc.clash = true) ∧ (live 1 ↔ s.mu.saturation = true) ∧ (live 2 ↔ 16 ≤ s.lc.badFrames.length) ∧
    (live 3 ↔ s.lc.sendFailed ≠ none) ∧ (live 4 ↔ s.lc.answerDropped ≠ none) ∧
    (live 5 ↔ ∃ st e rest, s.tp.settings = some st ∧ s.tr.entries = e :: rest ∧
      s.tr.entries.length = st.trailArea ∧ current e.booking) ∧
    (live 6 ↔ ∃ st, s.tp.settings = some st ∧ s.ht.openCount = st.holdArea) ∧
    (live 7 ↔ s.cc.phase = .deferred ∧ s.cc.pendingTarget ≠ none) ∧ (live 8 ↔ s.su.reportLost = true) ∧
    (live 9 ↔ ∃ e ∈ s.pt, e.presence = .absent) ∧ (live 10 ↔ ∃ e ∈ s.pt, e.standing = .watch) ∧
    (live 11 ↔ ∃ e ∈ s.pt, e.tripped = true) ∧
    (live 12 ↔ ∃ e ∈ s.pt, e.standing = .barred ∨ e.standing = .recheck) ∧
    (∀ k, shown k ↔ s.mu.detect.getLsbD k = true ∧
      ((s.mu.latch.getLsbD k = true ∧ s.mu.latched.getLsbD k = true) ∨ (s.mu.latch.getLsbD k = false ∧ live k))) ∧
    (errorFlag s = true ↔ shown 0 ∨ shown 1 ∨ shown 12) ∧
    (warningFlag s = true ↔ ∃ k, 2 ≤ k ∧ k < 12 ∧ shown k) ∧
    (stopped s = true ↔ s.mu.stopOnError = true ∧ errorFlag s = true)) ∧
  (∀ s : State, relatch s =
    { s with mu := { s.mu with latched := s.mu.latched ||| (s.mu.detect &&& s.mu.latch &&& liveBits s) } }) ∧
  ∀ (i : Instr) (s t : State), exec i s = .next t →
    let enabled (k : Nat) : Prop := t.mu.detect.getLsbD k = true ∧ t.mu.latch.getLsbD k = true
    (∀ k, t.mu.latched.getLsbD k = true → s.mu.latched.getLsbD k = true ∨ enabled k) ∧
    (mayLatchWithin i = false → ∀ k, t.mu.latched.getLsbD k = true →
      s.mu.latched.getLsbD k = true ∨ (enabled k ∧ (liveBits t).getLsbD k = true)) ∧
    (mayClearLatches i = false → ∀ k, s.mu.latched.getLsbD k = true → t.mu.latched.getLsbD k = true) ∧
    (t.power = true →
      (t.pins.attn = true ↔
        t.tp.results ≠ [] ∨ (∃ x ∈ t.su.slots, x.statement.kind = .sealed) ∨ errorFlag t = true) ∧
      (t.pins.lde = true ↔ t.lc.tx ≠ .idle) ∧
      (t.lc.tx = .idle → t.pins.ltx = none) ∧
      (∀ answer bytes start b, t.lc.tx = .driving answer bytes start → (lineBits bytes)[(t.now - start) / 2]? = some b →
        t.pins.ltx = some (if (t.now - start) % 2 = 0 then !b else b)) ∧
      ∀ k, enabled k → (liveBits t).getLsbD k = true → t.mu.latched.getLsbD k = true) ∧
    (t.power = false → t.pins.attn = false ∧ t.pins.lde = false ∧ t.pins.ltx = none)

/-- State.reset is a part right after a cold start: the start tables of R37, R61, R75, R99, R118, R136, R156, R170,
R177 and R187. The invariants of the headline statements hold in it. -/
def Obligations.ResetIsAColdStart : Prop :=
  let s := State.reset
  (s.power = true ∧ s.retention = true ∧ s.pins.attn = false ∧ s.pins.lde = false ∧ s.pins.ltx = none ∧ s.pending = []) ∧
  (s.tp.state = .idle ∧ s.tp.response = none ∧ s.tp.busy = 0 ∧ s.tp.results = [] ∧ s.tp.settings = none) ∧
  (s.ct.cards = [] ∧ s.ct.serialNext = some 1 ∧ s.ct.float = 0 ∧ s.ct.life = ⟨.zero, .zero, .zero, .zero, .zero⟩ ∧
    s.ct.openOwn = .zero ∧ s.ct.sealOwn = none ∧ s.ct.cursor = none) ∧
  (s.ht.holds = [] ∧ s.ht.openCount = 0 ∧ s.ht.peerOpenCount = 0 ∧ s.ht.endList = [] ∧ s.ht.nextId = 1 ∧
    ∀ p, s.heldSum p = 0) ∧
  (s.tr.entries = [] ∧ s.tr.nextNumber = 1 ∧ s.xt.exchanges = [] ∧ s.xt.ended = [] ∧ s.xt.nextTag = 1) ∧
  (s.lc.station = .offline ∧ s.lc.answerQ = [] ∧ s.lc.requestQ = [] ∧ s.lc.tx = .idle ∧ s.lc.lastRequest = none ∧
    s.lc.beaconAt = none ∧ s.lc.heldBeacon = false ∧ (∀ m ∈ s.lc.wanted, m.tally = false ∧ m.check = false) ∧
    s.lc.listenEnd = none ∧ s.lc.heldLink = none ∧ s.lc.badFrames = [] ∧ s.lc.sendFailed = none ∧
    s.lc.answerDropped = none ∧ s.lc.clash = false) ∧
  (s.pt.length = 63 ∧ ∀ e ∈ s.pt, e = PeerEntry.fresh e.peer) ∧
  (s.cc.openCycle = 1 ∧ s.cc.sealing = none ∧ s.cc.phase = .steady ∧ s.cc.sealTimer = none ∧
    s.cc.pendingTarget = none ∧ s.cc.active = none ∧ s.cc.schedule = []) ∧
  (s.su.slots = [] ∧ s.su.nextNumber = 1 ∧ s.su.readPos = 0 ∧ s.su.reportLost = false) ∧
  (s.mu.detect = 0 ∧ s.mu.latch = 0 ∧ s.mu.latched = 0 ∧ s.mu.stopOnError = false ∧ s.mu.saturation = false) ∧
  floatBalanced s ∧ sealingWhole s ∧ withinRoom s ∧ tablesAgree s

/-! ### The Decimal Unit -/

/-- RATE (R9): the quotient of base times rate by 10,000, rounded half upward, exact over the whole range of both
operands; its base is zero or positive (G above zero, else zero), and no rate above 15.00 per cent and no fee above 0.99
is ever taken, by ENROL or by SET_RATE. -/
def Obligations.RateRoundsHalfUpward : Prop :=
  (∀ base bp : Nat, base ≤ 999999999999 → bp ≤ 1500 →
    base * bp < 10 ^ 16 ∧
      rateOf base bp = base * bp / 10000 + (if 5000 ≤ base * bp % 10000 then 1 else 0) ∧
      rateOf base bp ≤ 150000000000) ∧
    (∀ base, rateOf base 0 = 0) ∧ (∀ bp, rateOf 0 bp = 0) ∧ (∀ g : Total, (baseOf g : Int) = max g.val 0) ∧
    (∀ f st, readSettings f = .ok st → st.initialRate ≤ 1500 ∧ st.initialFee ≤ 99) ∧
    ∀ (s : State) (rate fee effective : Nat), (s.setRate rate fee effective).1 ≠ s → rate ≤ 1500 ∧ fee ≤ 99

/-- FEE (R10): count times fee, exact and at most 989,999.01. A marked count stands at 999,999 (R5), which FEE takes as
it takes any other, and the commission formed from it carries the mark. -/
def Obligations.FeeIsExact : Prop :=
  (∀ n fee : Nat, n ≤ 999999 → fee ≤ 99 → feeOf n fee = n * fee ∧ feeOf n fee ≤ 98999901) ∧
    (∀ c : Count, (c.mark = true → c.n = 999999) → c.inc.mark = true → c.inc.n = 999999) ∧
    (∀ a b : Count, (a.mark = true → a.n = 999999) → (b.mark = true → b.n = 999999) → (a.plus b).mark = true →
      (a.plus b).n = 999999) ∧
    ∀ (g lam : Total) (k : Count) (r : Rate), k.mark = true → (commission g lam k r).mark = true

/-- COUNT (R5): a count below 999,999 rises by one; at 999,999 it stays, is marked and reports saturation; a
marked count never changes; a report sets the saturation indication, a booked TAKEN among them, and a refund or an
adjustment (`PeerEntry.adjust`) leaves counts as they are. -/
def Obligations.CountsStopAtTheirLimit : Prop :=
  (∀ c : Count, c.mark = false → c.n < 999999 → c.inc = ⟨c.n + 1, false⟩ ∧ c.incSat = false) ∧
    (∀ c : Count, c.mark = false → c.n = 999999 → c.inc = ⟨999999, true⟩ ∧ c.incSat = true) ∧
    (∀ c : Count, c.mark = true → c.inc = c) ∧ (∀ s : State, (s.raiseSat true).mu.saturation = true) ∧
    (∀ (s : State) (p amount b : Nat) (orphan : Bool),
      ((s.peer p).bookAskingSat (s.cc.booksSealing b) (orphan || s.cc.booksLate b) true amount amount) = true →
      (s.bookAnswer p amount b true orphan).mu.saturation = true) ∧
    (∀ (e : PeerEntry) (toSealing late : Bool) (amount : Nat) (x : Int),
      (e.bookAsking toSealing late false amount x).openF.k = e.openF.k ∧
        (e.bookAsking toSealing late false amount x).sealF.map Figures.k = e.sealF.map Figures.k) ∧
    ∀ (e : PeerEntry) (dR dL : Int),
      (e.adjust dR dL).openF = e.openF ∧ (e.adjust dR dL).sealF = e.sealF

/-- The settlement operations (R12): base, RATE and FEE, the commission held to the base, and the net. -/
def Obligations.SettlementOperations : Prop :=
  ∀ (g lam : Total) (k : Count) (r : Rate),
    let base : Int := if compareAmounts g.val 0 = .greater then g.val else 0
    let fees : Int := rateOf base.toNat r.bp + feeOf k.n r.fee
    let c := commission g lam k r
    let n := netOf g c lam
    c.val = (if compareAmounts fees base = .greater then base else fees) ∧ c.mark = (g.mark || k.mark || lam.mark) ∧
      (base = 0 → c.val = 0) ∧
      (g.val ≤ totalMax → k.n ≤ 999999 → r.bp ≤ 1500 → r.fee ≤ 99 → fees ≤ 150098999901) ∧
      (-totalMax ≤ g.val → g.val ≤ totalMax →
        overflows (g.val - c.val) = false ∧ n.val = saturate (g.val - c.val - lam.val) ∧
          n.mark = (g.mark || k.mark || lam.mark || overflows (g.val - c.val - lam.val))) ∧
      (directionOf n = .mallPays ↔ 0 ≤ n.val)

/-- ADD and SUBTRACT, the accumulate and compute uses, what reports saturation, and COMPARE (R4, R7); and GRANT, with
the least as read (R11). -/
def Obligations.TotalsAndGrants : Prop :=
  ((∀ x : Int, -999999999999 ≤ x → x ≤ 999999999999 → saturate x = x ∧ overflows x = false) ∧
     (∀ x : Int, 999999999999 < x → saturate x = 999999999999 ∧ overflows x = true) ∧
     (∀ x : Int, x < -999999999999 → saturate x = -999999999999 ∧ overflows x = true) ∧
     (∀ (t : Total) (x : Int), t.mark = true → t.acc x = t) ∧
     (∀ (t : Total) (x : Int), t.mark = false → t.acc x = ⟨saturate (t.val + x), overflows (t.val + x)⟩) ∧
     (∀ (t : Total) (x : Int), t.accSat x = true ↔ t.mark = false ∧ overflows (t.val + x) = true) ∧
     (∀ a b : Total, a.diff b = ⟨saturate (a.val - b.val), a.mark || b.mark || overflows (a.val - b.val)⟩) ∧
     ∀ a b : Int, (compareAmounts a b = .less ↔ a < b) ∧ (compareAmounts a b = .equal ↔ a = b) ∧
       (compareAmounts a b = .greater ↔ b < a)) ∧
  ∀ a least v : Nat,
    let l := if least = 0 then a else least
    leastAsRead a least = l ∧ (formsRequest a least = true ↔ least ≤ a) ∧
      (a = 0 → grantOf a l v = .probe v) ∧ (0 < a → a ≤ v → grantOf a l v = .granted a 0 v) ∧
      (0 < a → v < a → l ≤ v → grantOf a l v = .granted v (a - v) v) ∧
      (0 < a → v < a → v < l → grantOf a l v = .funds a v)

/-! ### Enrolment and the terminal port -/

/-- ENROL (R185, R178): the settings are stored and the rate and enables set; a setting outside its range, or a second
ENROL, changes nothing but the port; and applied settings lie within the ranges of R185. What is read: the first setting
outside its range, in the order of R185, refuses with its index; none, and every setting stands as given, those marked
clamped at the nearest value of their range. An amount is twelve digits with sign byte 00, or 01 with twelve zeros. Of the
enables the thirteen bits of the sources are kept, and bits 13 to 15 of the applied ones read as 0 (log 45). -/
def Obligations.EnrolSetsThePartUp : Prop :=
  (∀ (x : AmountField) (n : Nat), readUnsigned x = some n ↔
    bcdNat? 12 (x.toNat % 2 ^ 48) = some n ∧ (x.toNat / 2 ^ 48 = 0 ∨ (x.toNat / 2 ^ 48 = 1 ∧ n = 0))) ∧
  (∀ f : EnrolFields,
    let within (i : Nat) : Prop := match i with
      | 1 => 1 ≤ f.station.toNat ∧ f.station.toNat ≤ 63
      | 2 => 256 ≤ f.cardArea.toNat
      | 3 => 32 ≤ f.holdArea.toNat ∧ f.holdArea.toNat ≤ 1024
      | 4 => 512 ≤ f.trailArea.toNat ∧ f.cardArea.toNat + f.holdArea.toNat + f.trailArea.toNat ≤ 3584
      | 5 => ∃ x, readUnsigned f.cardCeiling = some x ∧ 100 ≤ x ∧ x ≤ 9999999
      | 6 => ∃ x, readUnsigned f.floatLimit = some x ∧ 100 ≤ x
      | 7 => ∃ x, readUnsigned f.exposureLimit = some x ∧ 100 ≤ x
      | 8 => ∃ x y, readUnsigned f.exposureBand = some x ∧ readUnsigned f.exposureLimit = some y ∧ x ≤ y
      | 13 => f.initialRate.toNat ≤ 1500
      | 14 => f.initialFee.toNat ≤ 99
      | 17 => f.stopOnError.toNat ≤ 1
      | _ => True
    (∀ i, readSettings f = .error i ↔ ¬within i ∧ ∀ j, j < i → within j) ∧
    ((∀ i, within i) → ∃ st, readSettings f = .ok st) ∧
    ∀ st, readSettings f = .ok st →
      (∀ i, within i) ∧ st.station = f.station.toNat ∧ st.cardArea = f.cardArea.toNat ∧
        st.holdArea = f.holdArea.toNat ∧ st.trailArea = f.trailArea.toNat ∧
        readUnsigned f.cardCeiling = some st.cardCeiling ∧ readUnsigned f.floatLimit = some st.floatLimit ∧
        readUnsigned f.exposureLimit = some st.exposureLimit ∧ readUnsigned f.exposureBand = some st.exposureBand ∧
        st.holdLifetime = max 30 (min 600 f.holdLifetime.toNat) ∧
        st.sealWindow = max 30 (min 900 f.sealWindow.toNat) ∧ st.requestSpacing = min 7 f.requestSpacing.toNat ∧
        st.retention = max 1 (min 60 f.retention.toNat) ∧ st.initialRate = f.initialRate.toNat ∧
        st.initialFee = f.initialFee.toNat ∧ (st.stopOnError = true ↔ f.stopOnError = 1) ∧
        ∀ k, k < 13 → st.detectEnables.getLsbD k = f.detectEnables.getLsbD k ∧
          st.latchEnables.getLsbD k = f.latchEnables.getLsbD k) ∧
  ∀ (s : State) (t : Moment) (token : Token) (f : EnrolFields), s.power = true → s.tp.state = .idle →
    (∀ st, s.tp.settings = none → readSettings f = .ok st →
      exec (.enrol t token f) s =
        .next (finish (answered
          { begun s t with
            tp := { s.tp with settings := some st }
            cc := { s.cc with active := some ⟨st.initialRate, st.initialFee⟩, schedule := [] }
            mu := { s.mu with
              detect := st.detectEnables, latch := st.latchEnables, stopOnError := st.stopOnError } }
          token .ok st.values)) ∧
        1 ≤ st.station ∧ st.station ≤ 63 ∧ 256 ≤ st.cardArea ∧ 32 ≤ st.holdArea ∧ st.holdArea ≤ 1024 ∧
        512 ≤ st.trailArea ∧ st.cardArea + st.holdArea + st.trailArea ≤ 3584 ∧
        100 ≤ st.cardCeiling ∧ st.cardCeiling ≤ 9999999 ∧ 100 ≤ st.floatLimit ∧ st.floatLimit ≤ 999999999999 ∧
        100 ≤ st.exposureLimit ∧ st.exposureLimit ≤ 999999999999 ∧ st.exposureBand ≤ st.exposureLimit ∧
        30 ≤ st.holdLifetime ∧ st.holdLifetime ≤ 600 ∧ 30 ≤ st.sealWindow ∧ st.sealWindow ≤ 900 ∧
        st.requestSpacing ≤ 7 ∧ 1 ≤ st.retention ∧ st.retention ≤ 60 ∧ st.initialRate ≤ 1500 ∧ st.initialFee ≤ 99) ∧
    (∀ i, s.tp.settings = none → readSettings f = .error i →
      exec (.enrol t token f) s = .next (finish (answered (begun s t) token .badSetting [.num1 i]))) ∧
    (∀ st, s.tp.settings = some st →
      exec (.enrol t token f) s = .next (finish (answered (begun s t) token .alreadyEnrolled [])))

/-- A block written whole is the command it spells (R179, R180; that the command MALFORMED_BLOCK finds this by its bytes
is the model's choice, log 4). The blocks read are those of the layout of R180: code, till token, parameter length, the
parameters of that command and the CRC; one with fewer or more bytes than its length places, a CRC that differs, or a
code and parameter length that are not a command's is none. The token is read as written, and as 0 from fewer than five
bytes. Before enrolment every command but ENROL, STATUS, RESTART and WIPE is refused
NOT_ENROLLED (R184), whatever its parameters; a block whose cycle or trail number has a digit above 9 is not whole and
is answered MALFORMED before that test (log 29). -/
def Obligations.WrittenBlocksAreTheirCommands : Prop :=
  (∀ (s : State) (t : Moment) (block : List Byte) (c : Command), parseBlock block = some c →
    exec (.malformedBlock t (0xC1#8 :: block)) s = exec (c.instr t (blockToken block)) s) ∧
  (∀ (token : Token) (c : Command), parseBlock (c.block token) = some c ∧ blockToken (c.block token) = token) ∧
  (∀ (block : List Byte) (c : Command), parseBlock block = some c → block = c.block (blockToken block)) ∧
  (∀ block : List Byte, block.length < 8 → parseBlock block = none) ∧
  (∀ (code n : Byte) (token : Token) (params crc : List Byte), crc.length = 2 →
    let covered := code :: spellNum 4 token.toNat ++ n :: params
    (n.toNat ≠ params.length → parseBlock (covered ++ crc) = none) ∧
    (crc ≠ spellNum 2 (crc16 covered).toNat → parseBlock (covered ++ crc) = none) ∧
    ((code.toNat, params.length) ∉
        [(0x01, 49), (0x02, 0), (0x03, 0), (0x04, 0), (0x05, 10), (0x06, 13), (0x07, 6), (0x08, 6), (0x09, 6),
         (0x0A, 6), (0x0B, 20), (0x0C, 15), (0x0D, 8), (0x0E, 0), (0x0F, 0), (0x10, 6), (0x11, 0), (0x12, 0),
         (0x13, 1), (0x14, 1), (0x15, 15), (0x16, 0), (0x17, 2), (0x18, 0), (0x19, 0), (0x1A, 17)] →
      parseBlock (covered ++ crc) = none)) ∧
  (∀ (code : Byte) (token : Token) (rest : List Byte),
    blockToken (code :: spellNum 4 token.toNat ++ rest) = token) ∧
  (∀ block : List Byte, block.length < 5 → blockToken block = 0) ∧
  (∀ (s : State) (t : Moment) (token : Token) (c : Command), s.power = true → s.tp.state = .idle →
    s.tp.settings = none → (∀ f, c ≠ .enrol f) → c ≠ .status → c ≠ .restart → c ≠ .wipe →
    let digits : Prop := match c with
      | .issue _ v => readCycle v ≠ none
      | .setRate _ _ v => readCycle v ≠ none
      | .refund _ n _ => bcdNat? 8 n.toNat ≠ none
      | _ => True
    (digits → exec (c.instr t token) s = .next (finish (answered (begun s t) token .notEnrolled []))) ∧
      (¬digits → exec (c.instr t token) s = .next (finish (answered (begun s t) token (.reason .malformed) []))))

/-- The tests a till command meets before its own rule: the digits of a cycle or trail number (R180; log 29), the card
reference (R14), card-level amounts (R15), the pair of an AUTHORIZE (R11), the home station (R19; log 26), and the
record (R22 to R25). A command that fails one changes nothing but the port. A card reference reads as home station and
serial when its eleven digits are digits, both numbers lie in their ranges, and the eleventh is the check digit of the
other ten (R13, R14); a till command's filler nibble is not tested (log 13). A card-level amount is an unsigned one of at
most 99,999.99 (R15, R180), and a cycle is six digits (R97). -/
def Obligations.TillCommandsAreTested : Prop :=
  ((∀ k x : Nat,
      ((∃ i, i < k ∧ 9 < x / 16 ^ i % 16) → bcdNat? k x = none) ∧
        ((∀ i, i < k → x / 16 ^ i % 16 ≤ 9) →
          bcdNat? k x = some ((List.range k).map fun i => x / 16 ^ i % 16 * 10 ^ i).sum)) ∧
    (∀ (a : AmountField) (x : Nat), readCardAmount a = some x ↔ readUnsigned a = some x ∧ x ≤ 9999999) ∧
    (∀ v : CycleField, readCycle v = bcdNat? 6 v.toNat) ∧
    (∀ home n : Nat,
      checkDigit home n =
        (7 * (home / 10 % 10) + 3 * (home % 10) + 1 * (n / 10 ^ 7 % 10) + 7 * (n / 10 ^ 6 % 10) +
          3 * (n / 10 ^ 5 % 10) + 1 * (n / 10 ^ 4 % 10) + 7 * (n / 10 ^ 3 % 10) + 3 * (n / 10 ^ 2 % 10) +
          1 * (n / 10 % 10) + 7 * (n % 10)) % 10) ∧
    ∀ (f : RefField) (home n : Nat),
      readRef f = some ⟨home, n⟩ ↔
        bcdNat? 11 (f.toNat / 16) = some (home * 10 ^ 9 + n * 10 + checkDigit home n) ∧
          1 ≤ home ∧ home ≤ 63 ∧ 1 ≤ n ∧ n ≤ 99999999) ∧
  ∀ (s : State) (st : Settings) (t : Moment) (token : Token), tillReady s st →
    let refused (i : Instr) (status : Status) : Prop :=
      exec i s = .next (finish (answered (begun s t) token status []))
    (∀ (a : AmountField) (v : CycleField) (rate : BitVec 16) (fee : BitVec 8) (ref : RefField) (k : Digits8Field),
      (readCycle v = none →
        refused (.issue t token a v) (.reason .malformed) ∧ refused (.setRate t token rate fee v) (.reason .malformed)) ∧
      (bcdNat? 8 k.toNat = none → refused (.refund t token ref k a) (.reason .malformed)) ∧
      (readCycle v ≠ none → readCardAmount a = none → refused (.issue t token a v) (.reason .amount))) ∧
    (∀ (ref : RefField) (a l : AmountField) (i : Num2Field) (k : Digits8Field), readRef ref = none →
      (refused (.load t token ref a) .badReference ∧ refused (.cashout t token ref) .badReference ∧
        refused (.freeze t token ref) .badReference ∧ refused (.thaw t token ref) .badReference ∧
        refused (.enquire t token ref) .badReference ∧ refused (.authorize t token ref a l) .badReference ∧
        refused (.capture t token ref i a) .badReference ∧ refused (.void t token ref i) .badReference) ∧
      (bcdNat? 8 k.toNat ≠ none → refused (.refund t token ref k a) .badReference)) ∧
    (∀ (ref : RefField) (r : CardRef) (a l : AmountField) (i : Num2Field) (k : Digits8Field), readRef ref = some r →
      (readCardAmount a = none →
        refused (.load t token ref a) (.reason .amount) ∧ refused (.authorize t token ref a l) (.reason .amount) ∧
          refused (.capture t token ref i a) (.reason .amount) ∧
          (bcdNat? 8 k.toNat ≠ none → refused (.refund t token ref k a) (.reason .amount))) ∧
      (∀ x, readCardAmount a = some x → readCardAmount l = none →
        refused (.authorize t token ref a l) (.reason .amount)) ∧
      (∀ x y, readCardAmount a = some x → readCardAmount l = some y → x < y →
        refused (.authorize t token ref a l) (.reason .amount))) ∧
    (∀ (ref : RefField) (home n : Nat) (a : AmountField) (x : Nat), readRef ref = some ⟨home, n⟩ →
      readCardAmount a = some x →
      (home ≠ st.station →
        refused (.load t token ref a) .notHome ∧ refused (.cashout t token ref) .notHome ∧
          refused (.freeze t token ref) .notHome ∧ refused (.thaw t token ref) .notHome) ∧
      (home = st.station → s.findCard n = none →
        refused (.load t token ref a) (.reason .unknownCard) ∧ refused (.cashout t token ref) (.reason .unknownCard) ∧
          refused (.freeze t token ref) (.reason .unknownCard) ∧ refused (.thaw t token ref) (.reason .unknownCard) ∧
          refused (.enquire t token ref) (.reason .unknownCard)))

/-- The transfers of the port (R179, R180): a block that is not whole is answered MALFORMED; a write outside IDLE is
refused and counted; a read returns the block in READY, and only a read of its last byte empties the buffer. The bytes
on MISO are recorded as far as the spec gives them (log 20); the read that empties the buffer returns the busy count to
0, the writes refused in READY with it (log 40). After a first byte other than C1 or C2 the state is as it was: the
state byte alone has been shifted out. The bytes of a response block are those of R180: status code, till token, busy
count, value length, each value by its type, CRC; its codes are those of R181, R98, R179, R180 and R183 (which type a
value is given in is log 12 where the spec does not say it). -/
def Obligations.PortTransfers : Prop :=
  (∀ r : Response,
    let reason : Reason → Nat
      | .unknownCard => 1 | .cardFrozen => 2 | .cardClosed => 3 | .cardLapsed => 4 | .funds => 5
      | .cardHoldsFull => 6 | .holdTableFull => 7 | .exposure => 8 | .peerBarred => 9 | .stationStopped => 10
      | .draining => 11 | .tagConflict => 12 | .unknownHold => 13 | .holdEnded => 15 | .amount => 16
      | .trailFull => 17 | .unknownCapture => 18 | .notRedeemer => 19 | .overRefund => 20 | .ceiling => 21
      | .malformed => 22
    let status : Status → Nat
      | .ok => 0 | .reason x => reason x | .waiting => 32 | .badReference => 33 | .notHome => 34 | .homeAbsent => 35
      | .homeUnknown => 36 | .notActive => 37 | .exchangesFull => 38 | .floatLimit => 39 | .cardTableFull => 40
      | .serialsExhausted => 41 | .cardHoldsOpen => 42 | .slotsFull => 43 | .closePending => 44 | .cycleLimit => 45
      | .scheduleFull => 46 | .pastCycle => 47 | .busy => 48 | .notEnrolled => 49 | .alreadyEnrolled => 50
      | .badSetting => 51 | .notEmpty => 52 | .nothing => 53
    let value : Value → List Byte
      | .amount n => spellSigned 0 n
      | .marked x => spellSigned (if x.mark = true then 2 else 0) x.val
      | .count c => (if c.mark = true then 0x01#8 else 0x00#8) :: spellDigits 3 c.n
      | .num1 n => spellNum 1 n
      | .num2 n => spellNum 2 n
      | .cycle none => [0x00#8, 0x00#8, 0x00#8]
      | .cycle (some n) => spellDigits 3 n
      | .flag b => [if b = true then 0x01#8 else 0x00#8]
      | .reference home n => spellRef home n
      | .noReference => [0x00#8, 0x00#8, 0x00#8, 0x00#8, 0x00#8, 0x0F#8]
      | .digits8 n => spellDigits 4 n
      | .token x => spellNum 4 x.toNat
    let values := r.values.flatMap value
    r.bytes =
        withCrc (spellNum 1 (status r.status) ++ spellNum 4 r.token.toNat ++ spellNum 1 r.busy ++
          spellNum 2 values.length ++ values) ∧
      ∀ x, Reason.code x = reason x) ∧
  (PortState.idle.code = 0 ∧ PortState.working.code = 1 ∧ PortState.ready.code = 2 ∧ PortState.starting.code = 3) ∧
  (CardState.active.code = 1 ∧ CardState.frozen.code = 2 ∧ CardState.closed.code = 3 ∧ CardState.lapsed.code = 4) ∧
  (Standing.good.code = 0 ∧ Standing.watch.code = 1 ∧ Standing.barred.code = 2 ∧ Standing.recheck.code = 3) ∧
  (StationState.offline.code = 0 ∧ StationState.listening.code = 1 ∧ StationState.active.code = 2 ∧
    StationState.draining.code = 3 ∧ StationState.withdrawn.code = 4) ∧
  ∀ (s : State) (t : Moment) (bytes : List Byte), s.power = true →
    let now := max s.now t
    (s.tp.state = .idle → parseBlock bytes = none →
      exec (.malformedBlock t (0xC1#8 :: bytes)) s =
        .next (finish (answered (begun s t) (blockToken bytes) (.reason .malformed) []))) ∧
    (s.tp.state ≠ .idle →
      exec (.writeRefusedBusy t (0xC1#8 :: bytes)) s =
        .next (finish { s with
          now := now
          pins := { s.pins with miso := [BitVec.ofNat 8 s.tp.state.code] }
          tp := { s.tp with busy := min 255 (s.tp.busy + 1) } })) ∧
    (∀ r, s.tp.state = .ready → s.tp.response = some r →
      exec (.responseRead t (0xC2#8 :: bytes)) s =
        .next (finish { s with
          now := now
          pins := { s.pins with miso := 0x02#8 :: r.bytes.take bytes.length }
          tp := if r.bytes.length ≤ bytes.length then { s.tp with state := .idle, response := none, busy := 0 }
            else s.tp })) ∧
    (s.tp.state ≠ .ready →
      exec (.responseRead t (0xC2#8 :: bytes)) s =
        .next (finish { s with
          now := now
          pins := { s.pins with
            miso := BitVec.ofNat 8 s.tp.state.code :: List.replicate bytes.length 0xFF#8 } })) ∧
    ∀ first : Byte, first ≠ 0xC1#8 → first ≠ 0xC2#8 →
      let left : Answer :=
        .next (finish { s with now := now, pins := { s.pins with miso := [BitVec.ofNat 8 s.tp.state.code] } })
      exec (.malformedBlock t (first :: bytes)) s = left ∧ exec (.writeRefusedBusy t (first :: bytes)) s = left ∧
        exec (.responseRead t (first :: bytes)) s = left

/-- READ_RESULT (R182): the oldest result leaves, with its values, and a waiting result enters; an empty queue returns
NONE. RESULT_QUEUE_FILL: while the queue is full or nothing waits it changes nothing; else the waiting result that
became pending first enters, whichever source holds it, and so on while there is room. An exchange's result takes a DONE
exchange with it and leaves an UNSURE one (R117); the held link result leaves the Link Controller. Waiting results also
enter in the step that makes the room (log 17); the places that order them are the model's counter (log 10). The values
of a result are those of R182 and R116 in their order: kind, outcome, for RESOLVED the inner outcome, tag and till
token, home station and card reference, then the values of the outcome (the command's own parameters: log 11; their
types and order: log 12); a link result carries zeros in their places, the station state and the open cycle. -/
def Obligations.ResultsLeaveOldestFirst : Prop :=
  (∀ (tag : Nat) (token : Token) (p : ExParams) (home n : Nat) (resolved : Bool) (o : ExOutcome),
    let kind : Nat := match p with
      | .hold .. => 1 | .probe => 2 | .capture .. => 3 | .void _ => 4 | .refund .. => 5
    let outcome : Nat := match o with | .ok _ => 1 | .refused .. => 2 | .noAnswer => 3 | .unsure _ => 4
    let own : List Value := .reference home n :: match p with
      | .hold a l => [.amount a, .amount l]
      | .probe => []
      | .capture i a => [.num2 i, .amount a]
      | .void i => [.num2 i]
      | .refund k a => [.digits8 k, .amount a]
    let values : List Value := match o with
      | .ok (.hold i g r v b c) => [.num2 i, .amount g, .amount r, .amount v, .amount b, .cycle c]
      | .ok (.probe v b c) => [.amount v, .amount b, .cycle c]
      | .ok (.capture i k x r b y) => [.num2 i, .digits8 k, .amount x, .amount r, .cycle (some b), .amount y]
      | .ok (.void i x b v) => [.num2 i, .amount x, .amount b, .amount v]
      | .ok (.refund k x m b y) => [.digits8 k, .amount x, .amount m, .cycle (some b), .amount y]
      | .refused r v => [.num1 r.code, .amount v]
      | .noAnswer => own
      | .unsure sends => own ++ [.count ⟨sends, false⟩]
    (ResultRec.exchange tag token p home n resolved o).values =
      [.num1 kind] ++ (if resolved = true then [.num1 5, .num1 outcome] else [.num1 outcome]) ++
        [.num2 tag, .token token, .num1 home, .reference home n] ++ values) ∧
  (∀ (o : LinkOutcome) (x : StationState) (k : Nat),
    (ResultRec.link o x k).values =
      [.num1 6, .num1 (match o with | .joined => 6 | .clash => 7 | .drained => 8), .num2 0, .token 0, .num1 0,
        .noReference,
        .num1 (match x with | .offline => 0 | .listening => 1 | .active => 2 | .draining => 3 | .withdrawn => 4),
        .cycle (some k)]) ∧
  ∀ (s : State) (st : Settings) (t : Moment) (token : Token),
    let entered (r : ResultRec) : Port := { s.tp with results := s.tp.results ++ [r] }
    let delivered (e : Exchange) : ExchangeTable :=
      { s.xt with
        exchanges :=
          if e.state = .done then s.xt.exchanges.filter fun x => x.tag != e.tag
          else s.xt.exchanges.map fun x => if x.tag == e.tag then { x with result := none } else x }
    let first (e : Exchange) (w : Waiting) : Prop :=
      e ∈ s.xt.exchanges ∧ e.result = some w ∧
        ∀ x ∈ s.xt.exchanges, x ≠ e → x.tag ≠ e.tag ∧ ∀ v, x.result = some v → w.place < v.place
    (tillReady s st → s.tp.results = [] →
      exec (.readResult t token) s = .next (finish (answered (begun s t) token .nothing []))) ∧
    (∀ r rest, tillReady s st → s.tp.results = r :: rest →
      exec (.readResult t token) s =
        .next (finish (answered { begun s t with tp := { s.tp with results := rest } : State }.fillResults token .ok
          r.values))) ∧
    (s.power = true → exec (.resultQueueFill t) s = .next (finish (s.atMoment t).fillResults)) ∧
    (s.fillResult = none → s.fillResults = s) ∧ (∀ u, s.fillResult = some u → s.fillResults = u.fillResults) ∧
    (32 ≤ s.tp.results.length → s.fillResult = none) ∧
    ((∀ e ∈ s.xt.exchanges, e.result = none) → s.lc.heldLink = none → s.fillResult = none) ∧
    (s.tp.results.length < 32 →
      (∀ v, (∀ e ∈ s.xt.exchanges, e.result = none) → s.lc.heldLink = some v →
        s.fillResult = some { s with tp := entered v.result, lc := { s.lc with heldLink := none } }) ∧
      (∀ e w, first e w → s.lc.heldLink = none →
        s.fillResult = some { s with tp := entered w.result, xt := delivered e }) ∧
      ∀ e w v, first e w → s.lc.heldLink = some v →
        (w.place < v.place → s.fillResult = some { s with tp := entered w.result, xt := delivered e }) ∧
        (v.place < w.place →
          s.fillResult = some { s with tp := entered v.result, lc := { s.lc with heldLink := none } }))

/-! ### The station on the line -/

/-- JOIN and LEAVE (R91, R94); and entry to WITHDRAWN (R94, R110, R121): the transmitter stops, both queues and the
marks are empty, beacons and the listen have stopped, no exchange is QUEUED or WAITING, none wants a resend, and every
presence is UNKNOWN; cards, holds, trail, figures, cycles and statements are as they were. By kind (R110,
`asideExchanges`): a CAPTURE or REFUND under way becomes UNSURE, a HOLD, PROBE or VOID ends NO_ANSWER and an internal
VOID leaves, UNSURE and DONE ones are kept; their results are then offered to the result queue (R117), in the order of
the model's counter (log 10). A frame cut off leaves the line busy, its last transition at that moment (log 21). -/
def Obligations.JoinLeaveAndWithdrawn : Prop :=
  (∀ (s : State) (st : Settings) (t : Moment) (token : Token), tillReady s st →
     (s.lc.station = .offline ∨ s.lc.station = .withdrawn →
       exec (.join t token) s =
         .next (finish (answered
           { begun s t with
             lc := { s.lc with station := .listening, listenEnd := some (max s.now t + 2000000), clash := false } }
           token .ok []))) ∧
     (s.lc.station = .listening ∨ s.lc.station = .active ∨ s.lc.station = .draining →
       exec (.join t token) s = .next (finish (answered (begun s t) token .ok [.num1 s.lc.station.code])) ∧
         exec (.leave t token) s = .next (finish (answered (begun s t).withdraw token .ok []))) ∧
     (s.lc.station = .offline ∨ s.lc.station = .withdrawn →
       exec (.leave t token) s = .next (finish (answered (begun s t) token .ok [])))) ∧
  ∀ s : State,
    let u := s.withdraw
    u.lc.station = .withdrawn ∧ u.lc.tx = .idle ∧ u.lc.answerQ = [] ∧ u.lc.requestQ = [] ∧ u.lc.beaconAt = none ∧
      u.lc.heldBeacon = false ∧ u.lc.listenEnd = none ∧ u.lc.badFrames = [] ∧
      (∀ m ∈ u.lc.wanted, m.tally = false ∧ m.check = false) ∧
      (∀ e ∈ u.xt.exchanges, e.state ≠ .queued ∧ e.state ≠ .waiting ∧ e.resendWanted = false) ∧
      u.pt = (s.pt.map fun e => { e with presence := .unknown, lastHeard := none }) ∧
      (withinRoom s →
        u =
          { s with
            seq := s.seq + asideResults s.xt.exchanges
            xt := { s.xt with
              exchanges := asideExchanges s.seq s.xt.exchanges
              ended := keepLast 64 (s.xt.ended ++ asideEnded s.xt.exchanges) }
            lc := { s.lc with
              station := .withdrawn, answerQ := [], requestQ := [], tx := .idle,
              line := if s.lc.tx = .idle then s.lc.line else ⟨false, s.now⟩,
              beaconAt := none, heldBeacon := false, wanted := stationNumbers.map fun p => ⟨p, false, false⟩,
              listenEnd := none, badFrames := [] }
            pt := s.pt.map fun e => { e with presence := .unknown, lastHeard := none } : State }.fillResults) ∧
      ChangesOnly
        [.place, .results, .exchanges, .station, .answers, .requests, .transmitter, .beacons, .wanted, .listen,
         .heldLink, .badFrames, .peers] s u

/-- DRAIN, and the moment a drain completes (R93): DRAIN and DRAIN_COMPLETE make this test. (The model makes it in the
other steps that may bring the conditions about too, log 17; their own statements say where.) -/
def Obligations.DrainCompletes : Prop :=
  (∀ (s : State) (st : Settings) (t : Moment) (token : Token), tillReady s st →
    (s.lc.station = .active →
      exec (.drain t token) s =
        .next (finish (answered { begun s t with lc := { s.lc with station := .draining } : State }.drainTest token .ok
          []))) ∧
    (s.lc.station = .draining → exec (.drain t token) s = .next (finish (answered (begun s t) token .ok []))) ∧
    (s.lc.station ≠ .active → s.lc.station ≠ .draining →
      exec (.drain t token) s = .next (finish (answered (begun s t) token .notActive [])))) ∧
  (∀ (s : State) (t : Moment), s.power = true →
    exec (.drainComplete t) s = .next (finish (s.atMoment t).drainTest)) ∧
  ∀ s : State,
    (s.lc.station = .draining → s.ht.peerOpenCount = 0 → (∀ e ∈ s.xt.exchanges, e.state = .done) →
      s.lc.answerQ = [] → (∀ q ∈ s.lc.requestQ, q.frame.body = .beacon) →
      (∀ m ∈ s.lc.wanted, m.tally = false ∧ m.check = false) → s.lc.tx = .idle →
      s.drainTest = s.withdraw.linkResult .drained) ∧
    (s.lc.station ≠ .draining → s.drainTest = s) ∧
    (s.ht.peerOpenCount ≠ 0 ∨ (∃ e ∈ s.xt.exchanges, e.state ≠ .done) ∨ s.lc.answerQ ≠ [] ∨
      (∃ q ∈ s.lc.requestQ, q.frame.body ≠ .beacon) ∨ (∃ m ∈ s.lc.wanted, m.tally = true ∨ m.check = true) ∨
      s.lc.tx ≠ .idle → s.drainTest = s)

/-! ### Own cards -/

/-- ISSUE (R20, R21): an accepted ISSUE makes the record and raises the float, S and lifetime loads; each refusal
changes nothing but the port. -/
def Obligations.IssueMakesACard : Prop :=
  ∀ (s : State) (st : Settings) (t : Moment) (token : Token) (amount : AmountField) (validity : CycleField) (a v : Nat),
    tillReady s st → readCardAmount amount = some a → readCycle validity = some v →
    let refused (status : Status) : Prop :=
      exec (.issue t token amount validity) s = .next (finish (answered (begun s t) token status []))
    (a = 0 → refused (.reason .amount)) ∧
    (st.cardCeiling < a → 0 < a → refused (.reason .ceiling)) ∧
    (0 < a → a ≤ st.cardCeiling → (st.floatLimit : Int) - s.ct.float < a → refused .floatLimit) ∧
    (0 < a → a ≤ st.cardCeiling → (a : Int) ≤ st.floatLimit - s.ct.float → st.cardArea ≤ s.ct.cards.length →
      refused .cardTableFull) ∧
    (0 < a → a ≤ st.cardCeiling → (a : Int) ≤ st.floatLimit - s.ct.float → s.ct.cards.length < st.cardArea →
      (s.ct.serialNext = none → refused .serialsExhausted) ∧
      ∀ n, s.ct.serialNext = some n →
        let o := s.cc.openCycle
        let applied := min v 3660
        let expiry := if applied = 0 then none else some (min 999999 (o + applied))
        exec (.issue t token amount validity) s =
          .next (finish (answered
            { begun s t with
              ct := { s.ct with
                cards := s.ct.cards ++
                  [{ serial := n, state := .active, balance := a, held := 0, openHolds := 0, expiry := expiry,
                     lastChange := o, sweepMark := o }]
                serialNext := if n = 99999999 then none else some (n + 1)
                float := s.ct.float + a
                life := { s.ct.life with loads := s.ct.life.loads.acc a }
                openOwn := { s.ct.openOwn with s := s.ct.openOwn.s.acc a } }
              mu := { s.mu with
                saturation := s.mu.saturation || (s.ct.life.loads.accSat a || s.ct.openOwn.s.accSat a) } }
            token .ok [.reference st.station n, .amount a, .cycle expiry, .cycle (some applied)])))

/-- LOAD and CASHOUT of an own card, on its record `c` as the access test leaves it (R22, R23, R32). -/
def Obligations.LoadAndCashout : Prop :=
  ∀ (s : State) (st : Settings) (t : Moment) (token : Token) (ref : RefField) (n : Nat) (c : Card),
    tillReady s st → readRef ref = some ⟨st.station, n⟩ →
    let v := (begun s t).lapseIfDue n
    let o := s.cc.openCycle
    v.findCard n = some c →
    (∀ (amount : AmountField) (a : Nat), readCardAmount amount = some a →
      let run := exec (.load t token ref amount) s
      let refused (status : Status) : Prop := run = .next (finish (answered v token status []))
      (a = 0 → refused (.reason .amount)) ∧
      (0 < a → c.state = .lapsed ∨ c.lapsePending o = true → refused (.reason .cardLapsed)) ∧
      (0 < a → c.state = .closed → refused (.reason .cardClosed)) ∧
      (0 < a → c.state = .frozen → c.lapsePending o = false → refused (.reason .cardFrozen)) ∧
      (0 < a → c.state = .active → c.lapsePending o = false →
        (st.cardCeiling - c.balance < a → refused (.reason .ceiling)) ∧
        (a ≤ st.cardCeiling - c.balance → (st.floatLimit : Int) - v.ct.float < a → refused .floatLimit) ∧
        (a ≤ st.cardCeiling - c.balance → (a : Int) ≤ st.floatLimit - v.ct.float →
          run = .next (finish (answered
            (withCard v n (fun c => { c with balance := c.balance + a, lastChange := o }) (v.ct.float + a)
              { v.ct.life with loads := v.ct.life.loads.acc a } { v.ct.openOwn with s := v.ct.openOwn.s.acc a }
              (v.ct.life.loads.accSat a || v.ct.openOwn.s.accSat a))
            token .ok [.amount (c.balance + a), .amount c.held, .amount (c.balance + a - c.held)]))))) ∧
    let run := exec (.cashout t token ref) s
    let refused (status : Status) : Prop := run = .next (finish (answered v token status []))
    (c.state = .closed → refused (.reason .cardClosed)) ∧
    (c.state = .lapsed ∨ c.lapsePending o = true → refused (.reason .cardLapsed)) ∧
    (c.state = .active ∨ c.state = .frozen → c.lapsePending o = false →
      (0 < c.openHolds → refused .cardHoldsOpen) ∧
      (c.openHolds = 0 →
        run = .next (finish (answered
          (withCard v n (fun c => { c with state := .closed, balance := 0, lastChange := o }) (v.ct.float - c.balance)
            { v.ct.life with cashouts := v.ct.life.cashouts.acc c.balance }
            { v.ct.openOwn with x := v.ct.openOwn.x.acc c.balance }
            (v.ct.life.cashouts.accSat c.balance || v.ct.openOwn.x.accSat c.balance))
          token .ok [.amount c.balance]))))

/-- FREEZE, THAW and ENQUIRE on an own card, on its record `c` as the access test leaves it (R24, R25, R32). ENQUIRE's
open holds are sent in the count type (R180 types counts so; that open holds are one, and the order of the values, is
log 12). -/
def Obligations.FreezeThawAndEnquire : Prop :=
  ∀ (s : State) (st : Settings) (t : Moment) (token : Token) (ref : RefField) (n : Nat) (c : Card),
    tillReady s st → readRef ref = some ⟨st.station, n⟩ →
    let v := (begun s t).lapseIfDue n
    let o := s.cc.openCycle
    v.findCard n = some c →
    let turned (goal : CardState) : State :=
      withCard v n (fun c => { c with state := goal, lastChange := o }) v.ct.float v.ct.life v.ct.openOwn false
    let answers (i : Instr) (u : State) (status : Status) (vs : List Value) : Prop :=
      exec i s = .next (finish (answered u token status vs))
    (c.state = .active → c.lapsePending o = false →
      answers (.freeze t token ref) (turned .frozen) .ok [.num1 CardState.frozen.code] ∧
        answers (.thaw t token ref) v .ok [.num1 CardState.active.code]) ∧
    (c.state = .frozen → c.lapsePending o = false →
      answers (.thaw t token ref) (turned .active) .ok [.num1 CardState.active.code] ∧
        answers (.freeze t token ref) v .ok [.num1 CardState.frozen.code]) ∧
    (c.state = .closed →
      answers (.freeze t token ref) v (.reason .cardClosed) [] ∧
        answers (.thaw t token ref) v (.reason .cardClosed) []) ∧
    (c.state = .lapsed ∨ c.lapsePending o = true →
      answers (.freeze t token ref) v (.reason .cardLapsed) [] ∧
        answers (.thaw t token ref) v (.reason .cardLapsed) []) ∧
    answers (.enquire t token ref) v .ok
      [.num1 c.state.code, .amount c.balance, .amount c.held, .amount (c.balance - c.held), .count ⟨c.openHolds, false⟩,
       .cycle c.expiry, .flag (c.lapsePending o)]

/-- The lapse of a due card (R31): when a record is due and lapse pending, what the access test does (R32), the changes
to the record, and the set that takes its balance. -/
def Obligations.DueCardsLapse : Prop :=
  (∀ (c : Card) (o : Nat),
    (c.due o = true ↔ (c.state = .active ∨ c.state = .frozen) ∧ ∃ x, c.expiry = some x ∧ x ≤ o) ∧
      (c.lapsePending o = true ↔ c.due o = true ∧ 0 < c.openHolds)) ∧
  (∀ (s : State) (n : Nat),
    let o := s.cc.openCycle
    (s.findCard n = none → s.lapseIfDue n = s) ∧
    ∀ c, s.findCard n = some c →
      (c.due o = false ∨ 0 < c.openHolds → s.lapseIfDue n = s) ∧
      (c.due o = true → c.openHolds = 0 →
        s.lapseIfDue n = s.lapseCard c ∧
          (s.lapseIfDue n).findCard n = some { c with state := .lapsed, balance := 0, lastChange := o, sweepMark := o })) ∧
  ∀ (s : State) (c : Card),
    let o := s.cc.openCycle
    let lapsed : State :=
      { s with
        ct := { s.ct with
          cards := s.ct.cards.map fun x => if x.serial == c.serial then
            { x with state := .lapsed, balance := 0, lastChange := o, sweepMark := o } else x
          float := s.ct.float - c.balance
          life := { s.ct.life with lapses := s.ct.life.lapses.acc c.balance } } }
    (∀ w k, s.ct.cursor = some k → c.sweepMark < o → s.ct.sealOwn = some w →
      s.lapseCard c =
        { lapsed with
          ct := { lapsed.ct with sealOwn := some { w with q := w.q.acc c.balance } }
          mu := { s.mu with
            saturation := s.mu.saturation || (s.ct.life.lapses.accSat c.balance || w.q.accSat c.balance) } }) ∧
    (s.ct.cursor = none ∨ o ≤ c.sweepMark →
      s.lapseCard c =
        { lapsed with
          ct := { lapsed.ct with openOwn := { s.ct.openOwn with q := s.ct.openOwn.q.acc c.balance } }
          mu := { s.mu with
            saturation :=
              s.mu.saturation || (s.ct.life.lapses.accSat c.balance || s.ct.openOwn.q.accSat c.balance) } })

/-! ### Holds, captures and refunds at the own till -/

/-- AUTHORIZE on an own card (R57): checks 1, 2 and 6 to 9 of R43, on the record `c` as the access test leaves it (R46);
then the hold of R47 in its cell, or the local probe (its values: log 12). -/
def Obligations.LocalAuthorize : Prop :=
  ∀ (s : State) (st : Settings) (t : Moment) (token : Token) (ref : RefField) (asked least : AmountField)
    (n a l : Nat),
    tillReady s st → readRef ref = some ⟨st.station, n⟩ → readCardAmount asked = some a →
    readCardAmount least = some l → l ≤ a →
    let run := exec (.authorize t token ref asked least) s
    let refused (u : State) (r : Reason) (vs : List Value) : Prop :=
      run = .next (finish (answered u token (.reason r) vs))
    let v := (begun s t).lapseIfDue n
    let o := s.cc.openCycle
    (stopped s = true → refused (begun s t) .stationStopped []) ∧
    (stopped s = false → s.lc.station = .draining → refused (begun s t) .draining []) ∧
    (stopped s = false → s.lc.station ≠ .draining →
      (s.findCard n = none → refused (begun s t) .unknownCard []) ∧
      ∀ c, v.findCard n = some c →
        (c.state = .lapsed ∨ c.lapsePending o = true → refused v .cardLapsed []) ∧
        (c.state = .closed → refused v .cardClosed []) ∧
        (c.state = .frozen → c.lapsePending o = false → refused v .cardFrozen []) ∧
        (c.state = .active → c.lapsePending o = false →
          (a = 0 → run =
            .next (finish (answered v token .ok
              [.num2 0, .amount (c.balance - c.held), .amount c.balance, .cycle c.expiry]))) ∧
          (0 < a → 4 ≤ c.openHolds → refused v .cardHoldsFull []) ∧
          (∀ x, c.openHolds < 4 → grantOf a (leastAsRead a l) (c.balance - c.held) = .funds a x →
            refused v .funds [.amount x]) ∧
          (∀ g r x, c.openHolds < 4 → grantOf a (leastAsRead a l) (c.balance - c.held) = .granted g r x →
            (v.takeCell st = none → refused v .holdTableFull []) ∧
            ∀ w, v.takeCell st = some w →
              let id := w.newHoldId
              run = .next (finish (answered
                { w with
                  ct := { w.ct with
                    cards := w.ct.cards.map fun x =>
                      if x.serial == n then { x with held := x.held + g, openHolds := x.openHolds + 1 } else x }
                  ht := { w.ht with
                    holds := w.ht.holds ++
                      [{ id := id, serial := n, asker := st.station, askTag := none, asked := a,
                         least := leastAsRead a l, amount := g, state := .held,
                         deadline := some (max s.now t + st.holdLifetime * 1000000), captureTag := none,
                         captured := none, trailNo := none, booking := none }]
                    openCount := w.ht.openCount + 1
                    nextId := if id = 65535 then 1 else id + 1 } }
                token .ok
                [.num2 id, .amount g, .amount r, .amount (c.balance - (c.held + g)), .amount c.balance,
                 .cycle c.expiry])))))

/-- Cells and hold ids (R41, R42): a free cell, or that of the record that ended first; none when every cell holds an
OPEN record; the id is the counter's when no record has it, and otherwise the first one from the counter on that no
record has, 65,535 being followed by 1. -/
def Obligations.CellsAndHoldIds : Prop :=
  ∀ (s : State) (st : Settings),
    (s.ht.holds.length < st.holdArea → s.takeCell st = some s) ∧
    (∀ i rest, st.holdArea ≤ s.ht.holds.length → s.ht.endList = i :: rest →
      s.takeCell st = some { s with ht := { s.ht with
        holds := s.ht.holds.filter fun h => h.id != i, endList := rest } }) ∧
    (st.holdArea ≤ s.ht.holds.length → s.ht.endList = [] → s.takeCell st = none) ∧
    (s.ht.nextId ∉ s.ht.holds.map Hold.id → s.newHoldId = s.ht.nextId) ∧
    (s.ht.holds.length ≤ 1024 → 1 ≤ s.ht.nextId → s.ht.nextId ≤ 65535 →
      let along (i : Nat) : Nat := (s.ht.nextId + i - 1) % 65535 + 1
      s.newHoldId ∉ s.ht.holds.map Hold.id ∧ 1 ≤ s.newHoldId ∧ s.newHoldId ≤ 65535 ∧
        ∃ j, s.newHoldId = along j ∧ ∀ i, i < j → along i ∈ s.ht.holds.map Hold.id)

/-- CAPTURE on an own card (R58, R53): the capture with its booking to U (R55), then the lapse of R33 where it applies;
or a refusal that changes nothing but the port (R58 says so of HOLD_ENDED; that UNKNOWN_HOLD makes no access test either
is log 39). -/
def Obligations.LocalCapture : Prop :=
  ∀ (s : State) (st : Settings) (t : Moment) (token : Token) (ref : RefField) (holdId : Num2Field)
    (amount : AmountField) (n x : Nat),
    tillReady s st → readRef ref = some ⟨st.station, n⟩ → readCardAmount amount = some x →
    let run := exec (.capture t token ref holdId amount) s
    let refused (r : Reason) : Prop := run = .next (finish (answered (begun s t) token (.reason r) []))
    (s.matchHold holdId.toNat st.station n = none → refused .unknownHold) ∧
    ∀ h, s.matchHold holdId.toNat st.station n = some h →
      (h.state ≠ .held → refused .holdEnded) ∧
      (h.state = .held → x = 0 ∨ h.amount < x → refused .amount) ∧
      (h.state = .held → 1 ≤ x → x ≤ h.amount → s.trailRoom st = none → refused .trailFull) ∧
      (∀ room c, h.state = .held → 1 ≤ x → x ≤ h.amount → s.trailRoom st = some room → s.findCard n = some c →
        let u := captured (begun s t) h room none x
        let v : State :=
          { u with
            ct := { u.ct with openOwn := { s.ct.openOwn with u := s.ct.openOwn.u.acc x } }
            mu := { s.mu with
              saturation := s.mu.saturation || (s.ct.life.captures.accSat x || s.ct.openOwn.u.accSat x) } }
        run = .next (finish (answered (v.lapseIfDue n) token .ok
          [.digits8 s.tr.nextNumber, .amount x, .amount (h.amount - x), .cycle (some s.cc.openCycle),
           .amount (c.balance - x)])))

/-- VOID on an own card by the state of its hold (R59, R56; of an answer given again, the access test is log 9 and the
figures of a purged card are log 34; a refusal makes no access test, log 39); and HOLD_DEADLINE of an OPEN hold whose
deadline is reached: it lapses, the card's held falls, and the card lapses after it when due (R50, R33, R26); for a
peer's hold the peer counter, its held sum and its exposure follow (R39, R49). Before its deadline, or for a hold that
is not OPEN, HOLD_DEADLINE moves the clock alone (log 3). The figures given again are the card's as it now stands:
balance, available and expiry (R52, R54, R69), and zero where its record is gone. -/
def Obligations.HoldsEndWithoutCapture : Prop :=
  (∀ (s : State) (n : Nat),
     (s.findCard n = none → s.cardFigures n = (0, 0, none)) ∧
     ∀ c, s.findCard n = some c → s.cardFigures n = (c.balance, c.balance - c.held, c.expiry)) ∧
  (∀ (s : State) (st : Settings) (t : Moment) (token : Token) (ref : RefField) (holdId : Num2Field) (n : Nat),
     tillReady s st → readRef ref = some ⟨st.station, n⟩ →
     let run := exec (.void t token ref holdId) s
     let v := (begun s t).lapseIfDue n
     let again (x : Nat) : Prop :=
       run = .next (finish (answered v token .ok
         [.amount x, .amount (v.cardFigures n).1, .amount (v.cardFigures n).2.1]))
     (s.matchHold holdId.toNat st.station n = none →
       run = .next (finish (answered (begun s t) token (.reason .unknownHold) []))) ∧
     ∀ h, s.matchHold holdId.toNat st.station n = some h →
       (h.state = .captured → run = .next (finish (answered (begun s t) token (.reason .holdEnded) []))) ∧
       (∀ c, h.state = .held → s.findCard n = some c →
         run = .next (finish (answered ((released (begun s t) h .freed).lapseIfDue n) token .ok
           [.amount h.amount, .amount c.balance, .amount (c.balance - (c.held - h.amount))]))) ∧
       (h.state = .freed → again h.amount) ∧ (h.state = .lapsed → again 0)) ∧
  ∀ (s : State) (st : Settings) (t : Moment) (id : Num2Field) (h : Hold), s.power = true →
    s.tp.settings = some st → s.findHold id.toNat = some h →
    let u := s.atMoment t
    let v := released u h .lapsed
    let run := exec (.holdDeadline t id) s
    (∀ d, h.state = .held → h.deadline = some d → d ≤ max s.now t →
      (h.asker = st.station → run = .next (finish (v.lapseIfDue h.serial).drainTest)) ∧
      (h.asker ≠ st.station →
        let w : State :=
          { v with ht := { v.ht with
              peerOpenCount := s.ht.peerOpenCount - 1
              peerHeld := s.ht.peerHeld.map fun y =>
                if y.peer == h.asker then { y with sum := y.sum - h.amount } else y } }
        run = .next (finish ((w.formExposure st h.asker).lapseIfDue h.serial).drainTest))) ∧
    (h.state ≠ .held ∨ (∀ d, h.deadline = some d → max s.now t < d) → run = .next (finish u.drainTest))

/-- REFUND on an own card (R73, R68): the checks on the trail entry, then on the record `c` as the access test leaves
it; the refund at the entry and the card, booked to U; or a refusal. A due card lapses at the access, before the sweep
reaches it too (log 35). -/
def Obligations.LocalRefund : Prop :=
  ∀ (s : State) (st : Settings) (t : Moment) (token : Token) (ref : RefField) (trail : Digits8Field)
    (amount : AmountField) (n k f : Nat),
    tillReady s st → readRef ref = some ⟨st.station, n⟩ → bcdNat? 8 trail.toNat = some k →
    readCardAmount amount = some f →
    let run := exec (.refund t token ref trail amount) s
    let refused (u : State) (r : Reason) (vs : List Value) : Prop :=
      run = .next (finish (answered u token (.reason r) vs))
    let u := begun s t
    let v := u.lapseIfDue n
    let o := s.cc.openCycle
    (s.findTrail k = none → refused u .unknownCapture []) ∧
    ∀ e, s.findTrail k = some e →
      (e.redeemer ≠ st.station → refused u .notRedeemer []) ∧
      (e.redeemer = st.station → e.serial ≠ n → refused u .unknownCapture []) ∧
      (e.redeemer = st.station → e.serial = n →
        (f = 0 ∨ e.captured - e.refunded < f → refused u .overRefund [.amount (e.captured - e.refunded)]) ∧
        (0 < f → f ≤ e.captured - e.refunded →
          (s.findCard n = none → refused u .unknownCard []) ∧
          ∀ c, v.findCard n = some c →
            (c.state = .closed → refused v .cardClosed []) ∧
            (c.state = .lapsed ∨ c.lapsePending o = true → refused v .cardLapsed []) ∧
            (c.state = .active ∨ c.state = .frozen → c.lapsePending o = false →
              (st.cardCeiling - c.balance < f → refused v .ceiling []) ∧
              (f ≤ st.cardCeiling - c.balance →
                let w := withCard v n (fun c => { c with balance := c.balance + f, lastChange := o })
                  (v.ct.float + f) { v.ct.life with refunds := v.ct.life.refunds.acc f }
                  { v.ct.openOwn with u := v.ct.openOwn.u.acc (-f) }
                  (v.ct.life.refunds.accSat f || v.ct.openOwn.u.accSat (-f))
                run = .next (finish (answered
                  { w with tr := { s.tr with
                    entries := s.tr.entries.map fun y =>
                      if y.number == k then { y with refunded := y.refunded + f } else y } }
                  token .ok
                  [.digits8 k, .amount f, .amount (e.captured - (e.refunded + f)), .cycle (some o),
                   .amount (c.balance + f)]))))))

/-! ### Foreign cards: exchanges -/

/-- A command on a foreign card becomes an exchange answered PENDING, or is refused by the admission checks (R103,
R104); one whose parameters can form no request is refused before them, its amount tested first (R103; that order is log
31). -/
def Obligations.ForeignCommandsBecomeExchanges : Prop :=
  ∀ (s : State) (st : Settings) (t : Moment) (token : Token) (ref : RefField) (home n : Nat), tillReady s st →
    readRef ref = some ⟨home, n⟩ → home ≠ st.station →
    let admitted (i : Instr) (p : ExParams) : Prop :=
      (s.admissionStatus home p = none →
        exec i s = .next (finish (answered ((begun s t).addExchange p home n (some token)).fillRequests token .waiting
          [.num2 s.xt.newTag]))) ∧
      ∀ status, s.admissionStatus home p = some status →
        exec i s = .next (finish (answered (begun s t) token status []))
    let refused (i : Instr) (r : Reason) : Prop := exec i s = .next (finish (answered (begun s t) token (.reason r) []))
    admitted (.enquire t token ref) .probe ∧
    (∀ (asked least : AmountField) (a l : Nat), readCardAmount asked = some a → readCardAmount least = some l → l ≤ a →
      admitted (.authorize t token ref asked least) (if a = 0 then .probe else .hold a (leastAsRead a l))) ∧
    (∀ (holdId : Num2Field) (amount : AmountField) (x : Nat), readCardAmount amount = some x →
      (x = 0 → refused (.capture t token ref holdId amount) .amount) ∧
      (0 < x → holdId = 0 → refused (.capture t token ref holdId amount) .unknownHold) ∧
      (0 < x → holdId ≠ 0 → admitted (.capture t token ref holdId amount) (.capture holdId.toNat x))) ∧
    (∀ holdId : Num2Field,
      (holdId = 0 → refused (.void t token ref holdId) .unknownHold) ∧
      (holdId ≠ 0 → admitted (.void t token ref holdId) (.void holdId.toNat))) ∧
    (∀ (trail : Digits8Field) (amount : AmountField) (k f : Nat), bcdNat? 8 trail.toNat = some k →
      readCardAmount amount = some f →
      (f = 0 → refused (.refund t token ref trail amount) .amount) ∧
      (0 < f → k = 0 → refused (.refund t token ref trail amount) .unknownCapture) ∧
      (0 < f → 0 < k → admitted (.refund t token ref trail amount) (.refund k f)))

/-- The admission checks in their order (R104) and the exchange an admission makes, with the first tag from the counter
on, 65,535 being followed by 1, that no exchange and no ended-list entry has (R102). Checks 1 and 5 tell HOLD and PROBE
from CAPTURE, VOID and REFUND; check 6 goes by the hold id of a CAPTURE or VOID and the trail number of a REFUND. -/
def Obligations.AdmissionAndTags : Prop :=
  (∀ (s : State) (home : Nat) (p : ExParams),
    let e := s.peer home
    let first (x : Status) : Prop := s.admissionStatus home p = some x
    let isNew : Prop := p = .probe ∨ ∃ a l, p = .hold a l
    let names (p : ExParams) (i : Nat) : Prop := p = .void i ∨ ∃ a, p = .capture i a
    let fits : Prop := s.lc.station = .active ∨ (s.lc.station = .draining ∧ ¬isNew)
    let claimed : Prop := ∃ x ∈ s.xt.exchanges, x.home = home ∧
      ((∃ i, names p i ∧ names x.params i) ∨ ∃ k a b, p = .refund k a ∧ x.params = .refund k b)
    (¬fits → first .notActive) ∧
    (fits →
      (e.presence = .unknown → first .homeUnknown) ∧ (e.presence = .absent → first .homeAbsent) ∧
      (e.presence = .present →
        (e.standing = .barred ∨ e.standing = .recheck → first (.reason .peerBarred)) ∧
        (e.standing = .good ∨ e.standing = .watch →
          (isNew → stopped s = true → first (.reason .stationStopped)) ∧
          (¬isNew → claimed → first .busy) ∧
          (¬isNew ∨ stopped s = false → ¬claimed →
            (32 ≤ s.xt.exchanges.length → first .exchangesFull) ∧
            (s.xt.exchanges.length < 32 → s.admissionStatus home p = none)))))) ∧
  (∀ (s : State) (p : ExParams) (home n : Nat) (token : Option Token),
    s.addExchange p home n token =
      { s with xt := { s.xt with
          exchanges := s.xt.exchanges ++
            [{ tag := s.xt.newTag, params := p, internal := token.isNone, home := home, serial := n, token := token,
               state := .queued, sends := 0, replyDeadline := none, resendWanted := false, result := none }]
          nextTag := if s.xt.newTag = 65535 then 1 else s.xt.newTag + 1 } }) ∧
  ∀ x : ExchangeTable,
    let taken (n : Nat) : Prop := (∃ e ∈ x.exchanges, e.tag = n) ∨ ∃ e ∈ x.ended, e.tag = n
    (¬taken x.nextTag → x.newTag = x.nextTag) ∧
    (x.exchanges.length ≤ 32 → x.ended.length ≤ 64 → 1 ≤ x.nextTag → x.nextTag ≤ 65535 →
      let along (i : Nat) : Nat := (x.nextTag + i - 1) % 65535 + 1
      ¬taken x.newTag ∧ 1 ≤ x.newTag ∧ x.newTag ≤ 65535 ∧ ∃ j, x.newTag = along j ∧ ∀ i, i < j → taken (along i))

/-- REPLY_TIMEOUT of a WAITING exchange whose deadline is reached (R108): below four sends it is QUEUED again; at four a
HOLD, PROBE or VOID ends NO_ANSWER and a CAPTURE or REFUND becomes UNSURE. Before its deadline, or for an exchange that
is not WAITING, only the clock moves (log 3). The place of a result is the model's counter (log 10). -/
def Obligations.RepliesTimeOut : Prop :=
  ∀ (s : State) (t : Moment) (tag : Num2Field) (e : Exchange), s.power = true → s.findExchange tag.toNat = some e →
    let u := s.atMoment t
    let run := exec (.replyTimeout t tag) s
    (∀ d, e.state = .waiting → e.replyDeadline = some d → d ≤ max s.now t → e.sends < 4 →
      run = .next (finish ((u.modExchange tag.toNat fun x =>
        { x with state := .queued, replyDeadline := none }).fillRequests).drainTest)) ∧
    (∀ d, e.state = .waiting → e.replyDeadline = some d → d ≤ max s.now t → 4 ≤ e.sends →
      run = .next (finish (u.setAside e).fillResults.drainTest)) ∧
    (e.state ≠ .waiting ∨ (∀ d, e.replyDeadline = some d → max s.now t < d) →
      run = .next (finish u.drainTest)) ∧
    (∀ k i, e.params = .capture k i ∨ e.params = .refund k i →
      s.setAside e =
        { s with
          xt := { s.xt with exchanges := s.xt.exchanges.map fun x => if x.tag == e.tag then
            { x with
              state := .unsure, replyDeadline := none, resendWanted := false,
              result := some
                ⟨.exchange e.tag (e.token.getD 0) e.params e.home e.serial false (.unsure e.sends), s.seq⟩ }
            else x }
          seq := s.seq + 1 }) ∧
    ((∀ k i, e.params ≠ .capture k i ∧ e.params ≠ .refund k i) →
      (s.setAside e).xt.ended = keepLast 64 (s.xt.ended ++
          [{ home := e.home, tag := e.tag, kind := e.params.kind, internal := e.internal, serial := e.serial,
             holdId := e.params.holdId?, trailNo := none, ending := .noAnswer }]) ∧
        (e.internal = true → (s.setAside e).xt.exchanges = s.xt.exchanges.filter fun x => x.tag != e.tag) ∧
        (e.internal = false → (s.setAside e).xt.exchanges = s.xt.exchanges.map fun x => if x.tag == e.tag then
          { x with
            state := .done, replyDeadline := none, resendWanted := false,
            result := some ⟨.exchange e.tag (e.token.getD 0) e.params e.home e.serial false .noAnswer, s.seq⟩ }
          else x))

/-! ### Requests from peers -/

/-- An ASK that passes every check makes a hold for its sender in its cell, whose held sum and exposure rise, and is
answered GRANT (R43, R47, R49); a probe is answered from the card and makes nothing (R48). -/
def Obligations.AskMakesAHold : Prop :=
  ∀ (s : State) (st : Settings) (t : Moment) (h : RxHeader) (g : Header) (ref : RefField) (asked least : AmountField)
    (n a l : Nat) (c : Card),
    lineReady s st → addressed st h g → (RawBody.ask ref asked least).read = some (.ask st.station n a l) →
    let u := heardFrom s st t g
    let v := u.lapseIfDue n
    let run := exec (.askReceived t h ref asked least) s
    stopped u = false → u.lc.station = .active →
    (u.peer g.source).standing = .good ∨ (u.peer g.source).standing = .watch → (u.peer g.source).tripped = false →
    a = 0 ∨ u.openAsk g.source g.tag = none →
    v.findCard n = some c → c.state = .active → c.lapsePending u.cc.openCycle = false →
    (a = 0 → run = .next (finish
      (v.offerAnswer ⟨g.source, g.tag, .grant 0 0 0 (c.balance - c.held) c.balance c.expiry⟩).drainTest)) ∧
    (∀ x r y w, 0 < a → c.openHolds < 4 → grantOf a l (c.balance - c.held) = .granted x r y → v.takeCell st = some w →
      let id := w.newHoldId
      let made : State :=
        { w with
          ct := { w.ct with
            cards := w.ct.cards.map fun y =>
              if y.serial == n then { y with held := y.held + x, openHolds := y.openHolds + 1 } else y }
          ht :=
            { holds := w.ht.holds ++
                [{ id := id, serial := n, asker := g.source, askTag := some g.tag, asked := a, least := l, amount := x,
                   state := .held, deadline := some (u.now + st.holdLifetime * 1000000), captureTag := none,
                   captured := none, trailNo := none, booking := none }]
              openCount := w.ht.openCount + 1
              peerOpenCount := w.ht.peerOpenCount + 1
              endList := w.ht.endList
              peerHeld := w.ht.peerHeld.map fun y => if y.peer == g.source then { y with sum := y.sum + x } else y
              nextId := if id = 65535 then 1 else id + 1 } }
      run = .next (finish ((made.formExposure st g.source).offerAnswer
        ⟨g.source, g.tag, .grant id x r (c.balance - (c.held + x)) c.balance c.expiry⟩).drainTest))

/-- The ASKs that make no hold (R43 to R46): refused by checks 1 to 4 in their order; a resend answered from its OPEN
record; another request with the same tag refused TAG_CONFLICT, a protocol fault of its sender; then no such card, a
card that is not ACTIVE or is lapse pending, a full card, too little available, no cell. (That a resend is answered
GRANT on a lapse pending card too is log 32.) The record a resend is answered from is the OPEN one with its source and
tag (R44). -/
def Obligations.AskRefusedOrRepeated : Prop :=
  (∀ (s : State) (asker tag : Nat),
    let made (h : Hold) : Prop := h.state = .held ∧ h.asker = asker ∧ h.askTag = some tag
    ((∀ h ∈ s.ht.holds, ¬made h) → s.openAsk asker tag = none) ∧
    ∀ before h after, s.ht.holds = before ++ h :: after → (∀ x ∈ before, ¬made x) → made h →
      s.openAsk asker tag = some h) ∧
  ∀ (s : State) (st : Settings) (t : Moment) (h : RxHeader) (g : Header) (ref : RefField) (asked least : AmountField)
    (home n a l : Nat),
    lineReady s st → addressed st h g → (RawBody.ask ref asked least).read = some (.ask home n a l) →
    let u := heardFrom s st t g
    let v := u.lapseIfDue n
    let e := u.peer g.source
    let run := exec (.askReceived t h ref asked least) s
    let refused (w : State) (r : Reason) (x : Nat) : Prop :=
      run = .next (finish (w.offerAnswer ⟨g.source, g.tag, .refuse 0x10 r x⟩).drainTest)
    (stopped u = true → refused u .stationStopped 0) ∧
    (stopped u = false → u.lc.station = .draining → refused u .draining 0) ∧
    (stopped u = false → u.lc.station = .active →
      (e.standing = .barred ∨ e.standing = .recheck → refused u .peerBarred 0) ∧
      (e.standing = .good ∨ e.standing = .watch →
        (e.tripped = true → refused u .exposure 0) ∧
        (e.tripped = false →
          (∀ k, 0 < a → u.openAsk g.source g.tag = some k →
            (k.serial = n ∧ k.asked = a ∧ k.least = l →
              run = .next (finish (u.offerAnswer ⟨g.source, g.tag, .grant k.id k.amount (k.asked - k.amount)
                (u.cardFigures n).2.1 (u.cardFigures n).1 (u.cardFigures n).2.2⟩).drainTest)) ∧
            (k.serial ≠ n ∨ k.asked ≠ a ∨ k.least ≠ l →
              run = .next (finish ((u.protocolFault g.source).offerAnswer
                ⟨g.source, g.tag, .refuse 0x10 .tagConflict 0⟩).drainTest))) ∧
          (a = 0 ∨ u.openAsk g.source g.tag = none →
            (home ≠ st.station ∨ u.findCard n = none → refused u .unknownCard 0) ∧
            (∀ c, home = st.station → v.findCard n = some c →
              (c.state = .lapsed ∨ c.lapsePending u.cc.openCycle = true → refused v .cardLapsed 0) ∧
              (c.state = .closed → refused v .cardClosed 0) ∧
              (c.state = .frozen → c.lapsePending u.cc.openCycle = false → refused v .cardFrozen 0) ∧
              (c.state = .active → c.lapsePending u.cc.openCycle = false →
                (0 < a → 4 ≤ c.openHolds → refused v .cardHoldsFull 0) ∧
                (∀ x, c.openHolds < 4 → grantOf a l (c.balance - c.held) = .funds a x → refused v .funds x) ∧
                (∀ x r y, c.openHolds < 4 → grantOf a l (c.balance - c.held) = .granted x r y → v.takeCell st = none →
                  refused v .holdTableFull 0)))))))

/-- A TAKE of an OPEN hold captures it for its sender: the capture, the booking to the sender's L, the lapse of R33
where it applies, and TAKEN (R53, R55, R49); it is refused AMOUNT or TRAIL_FULL without a change, HOLD_ENDED or
UNKNOWN_HOLD where no OPEN record matches, and repeated where the record says so (R52, R54; its access test, and none at
a refusal: logs 9, 39). The exposure is formed once, after held sum and L have changed (log 33). The record a request
names has its hold id, asking station and serial (R52); the trail has room below T entries, or over a head booked in
neither the open cycle nor the sealing one (R65); and the search finds the entry nearest the tail with the redeeming
station, tag and serial (R67). -/
def Obligations.TakeCapturesTheHold : Prop :=
  (∀ (s : State) (id asker serial : Nat),
    let named (h : Hold) : Prop := h.id = id ∧ h.asker = asker ∧ h.serial = serial
    ((∀ h ∈ s.ht.holds, ¬named h) → s.matchHold id asker serial = none) ∧
    ∀ before h after, s.ht.holds = before ++ h :: after → (∀ x ∈ before, ¬named x) → named h →
      s.matchHold id asker serial = some h) ∧
  (∀ (s : State) (st : Settings),
    let current (c : Nat) : Prop := c = s.cc.openCycle ∨ ∃ x, s.cc.sealing = some x ∧ c = x.cycle
    (s.tr.entries.length < st.trailArea → s.trailRoom st = some s.tr.entries) ∧
    ∀ e rest, s.tr.entries = e :: rest → st.trailArea ≤ s.tr.entries.length →
      (current e.booking → s.trailRoom st = none) ∧ (¬current e.booking → s.trailRoom st = some rest)) ∧
  (∀ (s : State) (redeemer tag serial : Nat),
    let sought (e : TrailEntry) : Prop := e.redeemer = redeemer ∧ e.captureTag = some tag ∧ e.serial = serial
    ((∀ e ∈ s.tr.entries, ¬sought e) → s.searchTrail redeemer tag serial = none) ∧
    ∀ before e after, s.tr.entries = before ++ e :: after → sought e → (∀ x ∈ after, ¬sought x) →
      s.searchTrail redeemer tag serial = some e) ∧
  ∀ (s : State) (st : Settings) (t : Moment) (hd : RxHeader) (g : Header) (holdId : Num2Field) (serial : Digits8Field)
    (amount : AmountField) (i n x : Nat),
    lineReady s st → addressed st hd g → (RawBody.take holdId serial amount).read = some (.take i n x) →
    let u := heardFrom s st t g
    let run := exec (.takeReceived t hd holdId serial amount) s
    let refused (r : Reason) : Prop :=
      run = .next (finish (u.offerAnswer ⟨g.source, g.tag, .refuse 0x12 r 0⟩).drainTest)
    (u.matchHold i g.source n = none → u.searchTrail g.source g.tag n = none → refused .unknownHold) ∧
    (∀ e, u.matchHold i g.source n = none → u.searchTrail g.source g.tag n = some e →
      run = .next (finish ((u.lapseIfDue n).offerAnswer
        ⟨g.source, g.tag, .taken e.number e.captured 0 e.booking ((u.lapseIfDue n).cardFigures n).1⟩).drainTest)) ∧
    ∀ h, u.matchHold i g.source n = some h →
      (h.state = .freed ∨ h.state = .lapsed → refused .holdEnded) ∧
      (h.state = .captured → h.captureTag ≠ some g.tag → refused .holdEnded) ∧
      (∀ y k b, h.state = .captured → h.captureTag = some g.tag → h.captured = some y → h.trailNo = some k →
        h.booking = some b →
        run = .next (finish ((u.lapseIfDue n).offerAnswer
          ⟨g.source, g.tag, .taken k y (h.amount - y) b ((u.lapseIfDue n).cardFigures n).1⟩).drainTest)) ∧
      (h.state = .held → x = 0 ∨ h.amount < x → refused .amount) ∧
      (h.state = .held → 1 ≤ x → x ≤ h.amount → u.trailRoom st = none → refused .trailFull) ∧
      (∀ room c, h.state = .held → 1 ≤ x → x ≤ h.amount → u.trailRoom st = some room → u.findCard n = some c →
        let v := captured u h room (some g.tag) x
        let w : State :=
          { v with
            ht := { v.ht with
              peerOpenCount := u.ht.peerOpenCount - 1
              peerHeld := u.ht.peerHeld.map fun y =>
                if y.peer == g.source then { y with sum := y.sum - h.amount } else y }
            mu := { u.mu with saturation := u.mu.saturation || u.ct.life.captures.accSat x } }
        run = .next (finish (((w.bookLiability st g.source x).lapseIfDue n).offerAnswer
          ⟨g.source, g.tag, .taken u.tr.nextNumber x (h.amount - x) u.cc.openCycle (c.balance - x)⟩).drainTest))

/-- A FREE by the state of the hold it names (R56, R49; of an answer given again, the access test is log 9 and the
figures of a purged card are log 34; a refusal makes no access test, log 39). -/
def Obligations.FreeReleasesTheHold : Prop :=
  ∀ (s : State) (st : Settings) (t : Moment) (hd : RxHeader) (g : Header) (holdId : Num2Field) (serial : Digits8Field)
    (i n : Nat),
    lineReady s st → addressed st hd g → (RawBody.free holdId serial).read = some (.free i n) →
    let u := heardFrom s st t g
    let run := exec (.freeReceived t hd holdId serial) s
    let answered (v : State) (b : Body) : Prop := run = .next (finish (v.offerAnswer ⟨g.source, g.tag, b⟩).drainTest)
    let again (x : Nat) : Prop :=
      let v := u.lapseIfDue n
      answered v (.freed x (v.cardFigures n).1 (v.cardFigures n).2.1)
    (u.matchHold i g.source n = none → answered u (.refuse 0x14 .unknownHold 0)) ∧
    ∀ h, u.matchHold i g.source n = some h →
      (h.state = .captured → answered u (.refuse 0x14 .holdEnded 0)) ∧
      (h.state = .freed → again h.amount) ∧ (h.state = .lapsed → again 0) ∧
      (∀ c, h.state = .held → u.findCard n = some c →
        let v := released u h .freed
        let w : State :=
          { v with ht := { v.ht with
              peerOpenCount := u.ht.peerOpenCount - 1
              peerHeld := u.ht.peerHeld.map fun y =>
                if y.peer == g.source then { y with sum := y.sum - h.amount } else y } }
        answered ((w.formExposure st g.source).lapseIfDue n)
          (.freed h.amount c.balance (c.balance - (c.held - h.amount))))

/-- A CREDIT that passes every check is applied at the entry and the card, and booked to its sender's L (R68, R71, R72);
a repeat is answered again (R69; its access test: log 9); each refusal changes nothing, the access test apart (R68,
R32). A due card lapses at the access, before the sweep reaches it too (log 35), and a repeat is answered CREDITED on a
lapse pending card too (log 41). -/
def Obligations.CreditReturnsMoney : Prop :=
  ∀ (s : State) (st : Settings) (t : Moment) (hd : RxHeader) (g : Header) (serial trail : Digits8Field)
    (amount : AmountField) (n k f : Nat),
    lineReady s st → addressed st hd g → (RawBody.credit serial trail amount).read = some (.credit n k f) →
    let u := heardFrom s st t g
    let v := u.lapseIfDue n
    let o := u.cc.openCycle
    let run := exec (.creditReceived t hd serial trail amount) s
    let answered (v : State) (b : Body) : Prop := run = .next (finish (v.offerAnswer ⟨g.source, g.tag, b⟩).drainTest)
    (u.findTrail k = none → answered u (.refuse 0x16 .unknownCapture 0)) ∧
    ∀ e, u.findTrail k = some e →
      (e.redeemer ≠ g.source → answered u (.refuse 0x16 .notRedeemer 0)) ∧
      (e.redeemer = g.source → e.serial ≠ n → answered u (.refuse 0x16 .unknownCapture 0)) ∧
      (e.redeemer = g.source → e.serial = n →
        (∀ y, e.lastCredit = some y → y.tag = g.tag → y.amount = f →
          answered v (.credited k f (e.captured - e.refunded) y.cycle (v.cardFigures n).1)) ∧
        ((∀ y, e.lastCredit = some y → y.tag ≠ g.tag ∨ y.amount ≠ f) →
          (f = 0 ∨ e.captured - e.refunded < f →
            answered u (.refuse 0x16 .overRefund (e.captured - e.refunded))) ∧
          (0 < f → f ≤ e.captured - e.refunded →
            (u.findCard n = none → answered u (.refuse 0x16 .unknownCard 0)) ∧
            ∀ c, v.findCard n = some c →
              (c.state = .closed → answered v (.refuse 0x16 .cardClosed 0)) ∧
              (c.state = .lapsed ∨ c.lapsePending o = true → answered v (.refuse 0x16 .cardLapsed 0)) ∧
              (c.state = .active ∨ c.state = .frozen → c.lapsePending o = false →
                (st.cardCeiling - c.balance < f → answered v (.refuse 0x16 .ceiling 0)) ∧
                (f ≤ st.cardCeiling - c.balance →
                  let w := withCard v n (fun c => { c with balance := c.balance + f, lastChange := o })
                    (v.ct.float + f) { v.ct.life with refunds := v.ct.life.refunds.acc f } v.ct.openOwn
                    (v.ct.life.refunds.accSat f)
                  let x : State :=
                    { w with tr := { u.tr with
                        entries := u.tr.entries.map fun y => if y.number == k then
                          { y with refunded := y.refunded + f, lastCredit := some ⟨g.tag, f, o⟩ } else y } }
                  answered (x.bookLiability st g.source (-f))
                    (.credited k f (e.captured - (e.refunded + f)) o (c.balance + f)))))))

/-- Booking a liability, exposure and its comparator (R123, R125, R126): L and lifeL take the booking, exposure is the
sum of its parts, whose saturation is reported (R6), and the comparator follows the limit and the band. -/
def Obligations.ExposureAndComparator : Prop :=
  (∀ (s : State) (st : Settings) (p : Nat) (x : Int),
    s.bookLiability st p x =
      ((s.modPeer p fun e => { e with openF := { e.openF with l := e.openF.l.acc x }, lifeL := e.lifeL.acc x }).raiseSat
        ((s.peer p).openF.l.accSat x || (s.peer p).lifeL.accSat x)).formExposure st p) ∧
  (∀ (s : State) (st : Settings) (p : Nat),
    (s.formExposure st p).pt = (s.pt.map fun e => if e.peer == p then e.withExposure st (s.heldSum p) else e) ∧
      ChangesOnly [.peers, .saturation] s (s.formExposure st p)) ∧
  (∀ (e : PeerEntry) (st : Settings) (held : Nat),
    let sealL : Total := match e.sealF with | some f => f.l | none => .zero
    let sum := max e.openF.l.val 0 + max sealL.val 0 + (held : Int)
    let e' := e.withExposure st held
    (∀ (s : State) (p : Nat), s.peer p = e → s.heldSum p = held →
      (s.formExposure st p).mu = { s.mu with saturation := s.mu.saturation || overflows sum }) ∧
    (e.openF.l.val ≤ totalMax → sealL.val ≤ totalMax → (held : Int) ≤ totalMax →
      e'.exposure = ⟨saturate sum, e.openF.l.mark || sealL.mark || overflows sum⟩) ∧
    e' = { e with exposure := e'.exposure, tripped := e'.tripped } ∧
    (e.tripped = false → (e'.tripped = true ↔ (st.exposureLimit : Int) ≤ e'.exposure.val)) ∧
    (e.tripped = true → (e'.tripped = false ↔
      e'.exposure.val ≤ (st.exposureLimit : Int) - st.exposureBand ∧ e'.exposure.val < st.exposureLimit)))

/-! ### Answers to own requests -/

/-- An answer that matches an exchange ends it, a TAKEN or CREDITED booked first (R111, R112, R115, R116); and which
exchange an answer matches: the first from its source with its tag that is QUEUED with sends above 0, WAITING or UNSURE
and whose kind it fits (R111). -/
def Obligations.MatchingAnswersAreTaken : Prop :=
  (∀ (s : State) (source tag : Nat) (b : Body),
    let fits (p : ExParams) : Prop := match p, b with
      | .hold .., .grant i .. => i ≠ 0
      | .probe, .grant i .. => i = 0
      | .capture .., .taken .. => True
      | .void .., .freed .. => True
      | .refund .., .credited .. => True
      | .hold .., .refuse k .. => k = 0x10
      | .probe, .refuse k .. => k = 0x10
      | .capture .., .refuse k .. => k = 0x12
      | .void .., .refuse k .. => k = 0x14
      | .refund .., .refuse k .. => k = 0x16
      | _, _ => False
    let matching (e : Exchange) : Prop :=
      e.home = source ∧ e.tag = tag ∧
        ((e.state = .queued ∧ 0 < e.sends) ∨ e.state = .waiting ∨ e.state = .unsure) ∧ fits e.params
    ((∀ e ∈ s.xt.exchanges, ¬matching e) → s.matchAnswer source tag b = none) ∧
    ∀ before e after, s.xt.exchanges = before ++ e :: after → (∀ x ∈ before, ¬matching x) → matching e →
      s.matchAnswer source tag b = some e) ∧
  ∀ (s : State) (st : Settings) (t : Moment) (h : RxHeader) (g : Header) (e : Exchange),
    lineReady s st → addressed st h g →
    let u := heardFrom s st t g
    let taken (i : Instr) (b : Body) (v : State) (ending : Ending) (hold trail : Option Nat) (o : ExOutcome) : Prop :=
      u.matchAnswer g.source g.tag b = some e →
      exec i s = .next (finish (v.endByAnswer e ending hold trail o).drainTest)
    (∀ (f : Num2Field) (f1 f2 f3 f4 : AmountField) (f5 : CycleField) (i x r v b : Nat) (c : Option Nat),
      (RawBody.grant f f1 f2 f3 f4 f5).read = some (.grant i x r v b c) →
      taken (.grantReceived t h f f1 f2 f3 f4 f5) (.grant i x r v b c) u .grant (some i) none
        (.ok (if i = 0 then .probe v b c else .hold i x r v b c))) ∧
    (∀ (f : Digits8Field) (f1 f2 : AmountField) (f3 : CycleField) (f4 : AmountField) (n x r k b : Nat),
      (RawBody.taken f f1 f2 f3 f4).read = some (.taken n x r k b) →
      taken (.takenReceived t h f f1 f2 f3 f4) (.taken n x r k b) (u.bookAnswer g.source x k true false) .taken none
        (some n) (.ok (.capture (e.params.holdId?.getD 0) n x r k b))) ∧
    (∀ (f1 f2 f3 : AmountField) (r b v : Nat), (RawBody.freed f1 f2 f3).read = some (.freed r b v) →
      taken (.freedReceived t h f1 f2 f3) (.freed r b v) u .freed none none
        (.ok (.void (e.params.holdId?.getD 0) r b v))) ∧
    (∀ (f : Digits8Field) (f1 f2 : AmountField) (f3 : CycleField) (f4 : AmountField) (n x m k b : Nat),
      (RawBody.credited f f1 f2 f3 f4).read = some (.credited n x m k b) →
      taken (.creditedReceived t h f f1 f2 f3 f4) (.credited n x m k b) (u.bookAnswer g.source x k false false)
        .credited none (some n) (.ok (.refund n x m k b))) ∧
    (∀ (k r : Byte) (f : AmountField) (reason : Reason) (v : Nat),
      (RawBody.refuse k r f).read = some (.refuse k.toNat reason v) →
      taken (.refuseReceived t h k r f) (.refuse k.toNat reason v) u .refuse none none (.refused reason v))

/-- Answers that match no exchange (R113 to R115): a repeat is dropped; an orphan FREED or REFUSE is dropped, an orphan
TAKEN or CREDITED is booked as late, and an orphan GRANT is handed on for an internal VOID. The latest ended-list entry
with its home station and tag decides whether an answer is a repeat (R113), and an internal VOID is made for a HOLD in
the ended list unless one for the same hold stands in the table or in the list (R114). -/
def Obligations.RepeatsAndOrphans : Prop :=
  (∀ (s : State) (source tag : Nat) (b : Body),
    let named (e : EndedEntry) : Prop := e.home = source ∧ e.tag = tag
    let repeated (e : EndedEntry) : Prop := match b with
      | .grant i .. => e.ending = .grant ∧ e.holdId = some i
      | .taken n .. => e.ending = .taken ∧ e.trailNo = some n
      | .freed .. => e.ending = .freed
      | .credited n .. => e.ending = .credited ∧ e.trailNo = some n
      | .refuse .. => e.ending = .refuse
      | _ => False
    ((∀ e ∈ s.xt.ended, ¬named e) → s.isRepeat source tag b = false) ∧
    (∀ before e after, s.xt.ended = before ++ e :: after → named e → (∀ x ∈ after, ¬named x) →
      (s.isRepeat source tag b = true ↔ repeated e)) ∧
    ((∀ e ∈ s.xt.ended, ¬(named e ∧ e.kind = .hold)) → s.endedHold source tag = none) ∧
    (∀ before e after, s.xt.ended = before ++ e :: after → named e → e.kind = .hold →
      (∀ x ∈ after, ¬(named x ∧ x.kind = .hold)) → s.endedHold source tag = some e) ∧
    ∀ i, s.voidStands source i = true ↔
      (∃ e ∈ s.xt.exchanges, e.internal = true ∧ e.home = source ∧ e.params = .void i) ∨
        ∃ e ∈ s.xt.ended, e.internal = true ∧ e.home = source ∧ e.kind = .void ∧ e.holdId = some i) ∧
  ∀ (s : State) (st : Settings) (t : Moment) (h : RxHeader) (g : Header), lineReady s st → addressed st h g →
    let u := heardFrom s st t g
    let unmatched (i : Instr) (b : Body) (v : State) : Prop :=
      u.matchAnswer g.source g.tag b = none →
      (u.isRepeat g.source g.tag b = true → exec i s = .next (finish u.drainTest)) ∧
      (u.isRepeat g.source g.tag b = false → exec i s = .next (finish v.drainTest))
    (∀ (f : Num2Field) (f1 f2 f3 f4 : AmountField) (f5 : CycleField) (i x r v b : Nat) (c : Option Nat),
      (RawBody.grant f f1 f2 f3 f4 f5).read = some (.grant i x r v b c) →
      unmatched (.grantReceived t h f f1 f2 f3 f4 f5) (.grant i x r v b c) (u.orphanGrant g.source g.tag i)) ∧
    (∀ (f : Digits8Field) (f1 f2 : AmountField) (f3 : CycleField) (f4 : AmountField) (n x r k b : Nat),
      (RawBody.taken f f1 f2 f3 f4).read = some (.taken n x r k b) →
      unmatched (.takenReceived t h f f1 f2 f3 f4) (.taken n x r k b) (u.bookAnswer g.source x k true true)) ∧
    (∀ (f1 f2 f3 : AmountField) (r b v : Nat), (RawBody.freed f1 f2 f3).read = some (.freed r b v) →
      unmatched (.freedReceived t h f1 f2 f3) (.freed r b v) u) ∧
    (∀ (f : Digits8Field) (f1 f2 : AmountField) (f3 : CycleField) (f4 : AmountField) (n x m k b : Nat),
      (RawBody.credited f f1 f2 f3 f4).read = some (.credited n x m k b) →
      unmatched (.creditedReceived t h f f1 f2 f3 f4) (.credited n x m k b) (u.bookAnswer g.source x k false true)) ∧
    (∀ (k r : Byte) (f : AmountField) (reason : Reason) (v : Nat),
      (RawBody.refuse k r f).read = some (.refuse k.toNat reason v) →
      unmatched (.refuseReceived t h k r f) (.refuse k.toNat reason v) u) ∧
    (∀ i, i = 0 ∨ s.endedHold g.source g.tag = none ∨ s.voidStands g.source i = true ∨ 32 ≤ s.xt.exchanges.length →
      s.orphanGrant g.source g.tag i = s) ∧
    (∀ i e, i ≠ 0 → s.endedHold g.source g.tag = some e → s.voidStands g.source i = false →
      s.xt.exchanges.length < 32 →
      s.orphanGrant g.source g.tag i = (s.addExchange (.void i) g.source e.serial none).fillRequests)

/-- The end of an exchange by an answer (R101, R106, R112, R117): its ended-list entry; no frame of it in the request
queue but one being driven; and its result by the three rows of R112, RESOLVED where an UNSURE result has already
entered the result queue, plain otherwise, in the place of an UNSURE result still pending (its turn: log 36). The result
enters at the tail of the result queue when there is room and nothing else waits, and waits in the exchange while the
queue is full. And the booking of a TAKEN or CREDITED by its booking cycle (R115, R123), with the saturation it
reports (R6). -/
def Obligations.AnswersEndAndAreBooked : Prop :=
  (∀ (s : State) (e : Exchange) (ending : Ending) (hold trail : Option Nat) (o : ExOutcome), e ∈ s.xt.exchanges →
     let u := s.endByAnswer e ending hold trail o
     u.xt.ended = keepLast 64 (s.xt.ended ++
       [{ home := e.home, tag := e.tag, kind := e.params.kind, internal := e.internal, serial := e.serial,
          holdId := hold.or e.params.holdId?, trailNo := trail.or e.params.trail?, ending := ending }]) ∧
     (∀ x ∈ u.xt.exchanges, x.tag = e.tag → x.state = .done ∧ e.internal = false) ∧
     (∀ q ∈ u.lc.requestQ.tail, ¬(q.frame.tag = e.tag ∧ q.frame.body.ofExchange = true)) ∧
     ((∀ bytes start, s.lc.tx ≠ .driving false bytes start) →
       ∀ q ∈ u.lc.requestQ, ¬(q.frame.tag = e.tag ∧ q.frame.body.ofExchange = true)) ∧
     ∀ resolved : Bool, (resolved = true ↔ e.state = .unsure ∧ e.result = none) →
       let r : ResultRec := .exchange e.tag (e.token.getD 0) e.params e.home e.serial resolved o
       (e.internal = false → s.tp.results.length < 32 → (∀ x ∈ s.xt.exchanges, x.tag ≠ e.tag → x.result = none) →
         s.lc.heldLink = none → u.tp.results = s.tp.results ++ [r] ∧ ∀ x ∈ u.xt.exchanges, x.tag ≠ e.tag) ∧
       (e.internal = false → 32 ≤ s.tp.results.length →
         u.tp.results = s.tp.results ∧ (∃ x ∈ u.xt.exchanges, x.tag = e.tag) ∧
           ∀ x ∈ u.xt.exchanges, x.tag = e.tag → x.result = some ⟨r, s.seq⟩)) ∧
  ∀ (s : State) (p amount b : Nat) (isTaken orphan : Bool),
    let x : Int := if isTaken then amount else -amount
    let booked (f : Figures) : Figures := { f with r := f.r.acc x, k := if isTaken then f.k.inc else f.k }
    let late (f : Figures) : Figures :=
      { f with lateCount := f.lateCount.inc, lateAmount := f.lateAmount.acc amount }
    let result (change : PeerEntry → PeerEntry) : Prop :=
      (s.bookAnswer p amount b isTaken orphan).pt = s.pt.map fun e => if e.peer == p then change e else e
    ChangesOnly [.peers, .saturation] s (s.bookAnswer p amount b isTaken orphan) ∧
    (let e := s.peer p
     let toSealing : Prop := ∃ ss, s.cc.sealing = some ss ∧ b = ss.cycle ∧ b ≠ s.cc.openCycle
     let isLate : Prop := orphan = true ∨ (b ≠ s.cc.openCycle ∧ ¬toSealing)
     let reports (f : Figures) : Prop := f.r.accSat x = true ∨ (isTaken = true ∧ f.k.incSat = true)
     (s.bookAnswer p amount b isTaken orphan).mu.saturation = true ↔
       s.mu.saturation = true ∨ e.lifeR.accSat x = true ∨ (¬toSealing ∧ reports e.openF) ∨
         (toSealing ∧ ∃ f, e.sealF = some f ∧ reports f) ∨
         (isLate ∧ (e.openF.lateCount.incSat = true ∨ e.openF.lateAmount.accSat amount = true))) ∧
    (b = s.cc.openCycle → orphan = false →
      result fun e => { e with openF := booked e.openF, lifeR := e.lifeR.acc x }) ∧
    (b = s.cc.openCycle → orphan = true →
      result fun e => { e with openF := late (booked e.openF), lifeR := e.lifeR.acc x }) ∧
    (∀ ss, s.cc.sealing = some ss → b = ss.cycle → b ≠ s.cc.openCycle → orphan = false →
      result fun e => { e with sealF := e.sealF.map booked, lifeR := e.lifeR.acc x }) ∧
    (∀ ss, s.cc.sealing = some ss → b = ss.cycle → b ≠ s.cc.openCycle → orphan = true →
      result fun e => { e with sealF := e.sealF.map booked, lifeR := e.lifeR.acc x, openF := late e.openF }) ∧
    (b ≠ s.cc.openCycle → (∀ ss, s.cc.sealing = some ss → b ≠ ss.cycle) →
      result fun e => { e with openF := late (booked e.openF), lifeR := e.lifeR.acc x })

/-! ### Other frames -/

/-- A TALLY is sorted against s_last and the cycles of this station, and compared at once or kept (R151, R153); a
comparison moves the standing (R127). -/
def Obligations.TalliesAreSortedAndCompared : Prop :=
  (∀ (s : State) (st : Settings) (t : Moment) (h : RxHeader) (g : Header) (cycle : CycleField) (a b : AmountField)
    (marks : Byte) (k : Nat) (r l : Total),
    lineReady s st → fromPeer st h g → g.dest = st.station → st.station ≠ 0 → g.tag = 0 →
    (RawBody.tally cycle a b marks).read = some (.tally k r l) →
    let y : Tally := ⟨k, r, l⟩
    let u := heardFrom s st t g
    exec (.tallyReceived t h cycle a b marks) s =
      .next (finish ((u.modPeer g.source fun e => e.takeTally u.cc y).raiseSat
        ((u.peer g.source).takeTallySat u.cc y)).drainTest)) ∧
  (∀ (cc : Cycles) (e : PeerEntry) (y : Tally),
    (y.cycle < e.sLast → e.takeTally cc y = e ∧ e.takeTallySat cc y = false) ∧
    (e.sLast ≤ y.cycle → y.cycle < cc.openCycle → (∀ x, cc.sealing = some x → y.cycle < x.cycle) →
      (y.r = e.lifeLs → y.l = e.lifeRs →
        e.takeTally cc y =
            { e with standing := e.standing.after true, lastMismatch := none, pendingTally := none } ∧
          e.takeTallySat cc y = false) ∧
      (y.r ≠ e.lifeLs ∨ y.l ≠ e.lifeRs →
        e.takeTally cc y =
            { e with
              standing := e.standing.after false
              lastMismatch := some (e.lifeRs.diff y.l, e.lifeLs.diff y.r)
              pendingTally := none } ∧
          e.takeTallySat cc y =
            (overflows (e.lifeRs.val - y.l.val) || overflows (e.lifeLs.val - y.r.val)))) ∧
    (e.sLast ≤ y.cycle → (cc.openCycle ≤ y.cycle ∨ ∃ x, cc.sealing = some x ∧ x.cycle ≤ y.cycle) →
      e.takeTally cc y = { e with pendingTally := some y } ∧ e.takeTallySat cc y = false)) ∧
  (Standing.after .good true = .good ∧ Standing.after .watch true = .good ∧ Standing.after .barred true = .barred ∧
    Standing.after .recheck true = .good ∧ Standing.after .good false = .watch ∧
    Standing.after .watch false = .barred ∧ Standing.after .barred false = .barred ∧
    Standing.after .recheck false = .barred)

/-- A CHECK asks for a TALLY unless no cycle has been sealed (R131). A BEACON asks for the frames its sender is owed
and makes the UNSURE exchanges with it want a resend (R109, R130, R132). What a readable header does before its body is
read: its source is PRESENT with its timer restarted, its state and cycle kept; the first one of a peer that was not
PRESENT asks for the frames owed too (R86, R121, R122), and one of a later cycle asks for a close (R141). Of one BEACON
the frames owed enter the request queue before the resends (log 43). -/
def Obligations.ChecksAndBeacons : Prop :=
  (∀ (s : State) (st : Settings) (t : Moment) (h : RxHeader) (g : Header), lineReady s st → fromPeer st h g →
    g.tag = 0 →
    let u := heardFrom s st t g
    (g.dest = st.station → st.station ≠ 0 →
      ((u.peer g.source).sLast = 0 → exec (.checkReceived t h) s = .next (finish u.drainTest)) ∧
      ((u.peer g.source).sLast ≠ 0 →
        let v : State :=
          { u with lc := { u.lc with
              wanted := u.lc.wanted.map fun m => if m.peer == g.source then { m with tally := true } else m } }
        exec (.checkReceived t h) s = .next (finish v.fillRequests.drainTest))) ∧
    (g.dest = 0 →
      exec (.beaconReceived t h) s = .next (finish ((u.askOwed g.source).wantResends g.source).drainTest))) ∧
  (∀ (s : State) (st : Settings) (t : Moment) (g : Header),
    let now := max s.now t
    let first : State :=
      { s with
        now := now
        pt := s.pt.map fun e => if e.peer == g.source then
          { e with
            presence := .present, lastHeard := some (now + 5000000), lastState := some g.senderState,
            lastCycle := some g.cycle } else e }
    let u := if (s.peer g.source).presence ≠ .present ∧ s.lc.onLine = true then first.askOwed g.source else first
    (g.cycle ≤ s.cc.openCycle → heardFrom s st t g = relatch u) ∧
      (s.cc.openCycle < g.cycle → heardFrom s st t g = relatch (u.catchUp st g.cycle))) ∧
  (∀ (s : State) (p : Nat),
    s.askOwed p = (s.askTally p).askCheck p ∧
    (((s.peer p).tallyOwed = true ∧ s.lc.onLine = true ∧ (s.peer p).presence = .present ∧
        (s.wantedMarks p).tally = false ∧
        ∀ q ∈ s.lc.requestQ, q.frame.dest = p → ∀ c r l, q.frame.body ≠ .tally c r l) →
      s.askTally p = (s.modWanted p fun m => { m with tally := true }).fillRequests) ∧
    ((s.peer p).tallyOwed = false ∨ s.lc.onLine = false ∨ (s.peer p).presence ≠ .present ∨
        (s.wantedMarks p).tally = true ∨ (∃ q ∈ s.lc.requestQ, q.frame.dest = p ∧ ∃ c r l, q.frame.body = .tally c r l) →
      s.askTally p = s) ∧
    (((s.peer p).standing = .recheck ∧ s.lc.onLine = true ∧ (s.peer p).presence = .present ∧
        (s.wantedMarks p).check = false ∧ ∀ q ∈ s.lc.requestQ, q.frame.dest = p → q.frame.body ≠ .check) →
      s.askCheck p = (s.modWanted p fun m => { m with check := true }).fillRequests) ∧
    ((s.peer p).standing ≠ .recheck ∨ s.lc.onLine = false ∨ (s.peer p).presence ≠ .present ∨
        (s.wantedMarks p).check = true ∨ (∃ q ∈ s.lc.requestQ, q.frame.dest = p ∧ q.frame.body = .check) →
      s.askCheck p = s)) ∧
  ∀ (s : State) (home : Nat),
    let standing (e : Exchange) : Prop :=
      e.home = home ∧ e.state = .unsure ∧ ∀ q ∈ s.lc.requestQ, q.frame.tag = e.tag → q.frame.body.ofExchange = false
    ∃ v : State, s.wantResends home = v.fillRequests ∧ v = { s with xt := v.xt } ∧
      v.xt.ended = s.xt.ended ∧ v.xt.nextTag = s.xt.nextTag ∧ v.xt.exchanges.length = s.xt.exchanges.length ∧
      ∀ (i : Nat) (e : Exchange), s.xt.exchanges[i]? = some e →
        (standing e → v.xt.exchanges[i]? = some { e with resendWanted := true }) ∧
        (¬standing e → v.xt.exchanges[i]? = some e)

/-- A good frame with the own number as its source is a clash: LISTENING falls back to OFFLINE, ACTIVE and DRAINING
enter WITHDRAWN, the clash stands and a link result reports it (R92, R95). In OFFLINE and WITHDRAWN nothing is heard. A
link result that finds the result queue full is held in the place of the one held before (R95, R182); the place it is
given in the order of the results that wait is the model's counter (log 10). -/
def Obligations.FrameClash : Prop :=
  (∀ (s : State) (st : Settings) (t : Moment) (f : RxFrame) (g : Header), s.power = true →
    s.tp.settings = some st → s.lc.isDriving = false → readHeader f.header = some g → g.source = st.station →
    let u := s.atMoment t
    let run := exec (.frameClash t f) s
    (s.lc.station = .listening →
      run = .next (finish (
        { u with
          lc := { s.lc with station := .offline, listenEnd := none, badFrames := [], clash := true }
          pt := s.pt.map fun e => { e with presence := .unknown, lastHeard := none } : State }.linkResult .clash))) ∧
    (s.lc.station = .active ∨ s.lc.station = .draining →
      run = .next (finish (
        { u.withdraw with lc := { u.withdraw.lc with clash := true } : State }.linkResult .clash))) ∧
    (s.lc.station = .offline ∨ s.lc.station = .withdrawn → run = .next (finish u))) ∧
  ∀ (s : State) (o : LinkOutcome),
    let r : ResultRec := .link o s.lc.station s.cc.openCycle
    (s.tp.results.length < 32 → s.linkResult o = { s with tp := { s.tp with results := s.tp.results ++ [r] } }) ∧
    (32 ≤ s.tp.results.length →
      s.linkResult o = { s with lc := { s.lc with heldLink := some ⟨r, s.seq⟩ }, seq := s.seq + 1 })

/-- Frames that are not served: an unreadable header or a deaf station changes nothing; a frame for another station, or
heard while LISTENING, is read for its header alone (R86); a malformed one is a protocol fault of its source, and a
request answered MALFORMED (R87, R128). Bad and oversize frames are counted, for 1,000 ms each (the moment they end is
log 19), and fragments are not (R85); what was heard is the bits of the line, and without a recognised beginning it is a
fragment (R76; that the class is found from the bits is log 4, the sixteen bits of the beginning log 21). A header is
readable just when its source is 1 to 63, its cycle six digits other than 000000 and its sender state 1 or 2 (R86). A
body fits just when its kind is one of the twelve, its length that of the kind, and its fields pass the tests of R87 in
the order of R98: digits and filler, signs, card reference (R14), numbers and cycles that must not be 0, the pair of an
ASK (R11), codes and marks; the fields read are the numbers so spelled. -/
def Obligations.FramesNotServed : Prop :=
  (∀ (h : RxHeader) (g : Header),
    readHeader h = some g ↔
      1 ≤ h.source.toNat ∧ h.source.toNat ≤ 63 ∧ bcdNat? 6 h.cycle.toNat = some g.cycle ∧ g.cycle ≠ 0 ∧
        ((h.senderState = 0x01#8 ∧ g.senderState = .active) ∨ (h.senderState = 0x02#8 ∧ g.senderState = .draining)) ∧
        g.dest = h.dest.toNat ∧ g.source = h.source.toNat ∧ g.tag = h.tag.toNat) ∧
  (∀ (kind : Nat) (body : List Byte),
    ((kind, body.length) ∉
        [(0x01, 0), (0x10, 20), (0x11, 33), (0x12, 13), (0x13, 28), (0x14, 6), (0x15, 21), (0x16, 15), (0x17, 28),
         (0x1F, 9), (0x20, 18), (0x21, 0)] → parseBody kind body = none) ∧
    ∀ raw : RawBody, parseBody kind body = some raw ↔ body = raw.bytes ∧ kind = match raw with
      | .beacon => 0x01 | .ask .. => 0x10 | .grant .. => 0x11 | .take .. => 0x12 | .taken .. => 0x13
      | .free .. => 0x14 | .freed .. => 0x15 | .credit .. => 0x16 | .credited .. => 0x17 | .refuse .. => 0x1F
      | .tally .. => 0x20 | .check => 0x21) ∧
  (∀ (raw : RawBody) (b : Body),
    let number (x : Digits8Field) (n : Nat) : Prop := bcdNat? 8 x.toNat = some n ∧ n ≠ 0
    let cycle (x : CycleField) (n : Nat) : Prop := bcdNat? 6 x.toNat = some n ∧ n ≠ 0
    let hold (x : Num2Field) (i : Nat) : Prop := i = x.toNat ∧ i ≠ 0
    let amount (x : AmountField) (n : Nat) : Prop := readUnsigned x = some n
    let reads : Prop := match raw, b with
      | .beacon, .beacon => True
      | .ask ref asked least, .ask home n a l =>
        ref.toNat % 16 = 15 ∧ readRef ref = some ⟨home, n⟩ ∧ amount asked a ∧
          ∃ x, amount least x ∧ x ≤ a ∧ l = if x = 0 then a else x
      | .grant holdId granted residual available balance expiry, .grant i g r v y e =>
        i = holdId.toNat ∧ amount granted g ∧ amount residual r ∧ amount available v ∧ amount balance y ∧
          ∃ k, bcdNat? 6 expiry.toNat = some k ∧ e = if k = 0 then none else some k
      | .take holdId serial x, .take i n a => hold holdId i ∧ number serial n ∧ amount x a
      | .taken trail captured released booking balance, .taken n c r k y =>
        number trail n ∧ amount captured c ∧ amount released r ∧ cycle booking k ∧ amount balance y
      | .free holdId serial, .free i n => hold holdId i ∧ number serial n
      | .freed released balance available, .freed r y v =>
        amount released r ∧ amount balance y ∧ amount available v
      | .credit serial trail x, .credit n k a => number serial n ∧ number trail k ∧ amount x a
      | .credited trail x remaining booking balance, .credited n a m k y =>
        number trail n ∧ amount x a ∧ amount remaining m ∧ cycle booking k ∧ amount balance y
      | .refuse refused reason value, .refuse k r v =>
        k = refused.toNat ∧ (k = 0x10 ∨ k = 0x12 ∨ k = 0x14 ∨ k = 0x16) ∧ r.code = reason.toNat ∧ amount value v
      | .tally c lifeRs lifeLs marks, .tally k r l =>
        cycle c k ∧ readSigned lifeRs = some r.val ∧ readSigned lifeLs = some l.val ∧ marks.toNat ≤ 3 ∧
          (r.mark = true ↔ marks.toNat % 2 = 1) ∧ (l.mark = true ↔ 2 ≤ marks.toNat)
      | .check, .check => True
      | _, _ => False
    raw.read = some b ↔ reads) ∧
  (∀ l : Link,
    (l.isDriving = true ↔ l.tx ≠ .idle) ∧ (l.onLine = true ↔ l.station = .active ∨ l.station = .draining) ∧
      (l.receives = true ↔
        (l.station = .listening ∨ l.station = .active ∨ l.station = .draining) ∧ l.tx = .idle)) ∧
  (∀ (s : State) (st : Settings) (t : Moment) (f : RxFrame), s.power = true → s.tp.settings = some st →
    (readHeader f.header = none → exec (.unreadableHeader t f) s = .next (finish (s.atMoment t))) ∧
    (s.lc.receives = false →
      exec (.unreadableHeader t f) s = .next (finish (s.atMoment t)) ∧
        exec (.headerOnlyFrame t f) s = .next (finish (s.atMoment t)) ∧
        exec (.malformedFrame t f) s = .next (finish (s.atMoment t))) ∧
    ∀ g, s.lc.receives = true → fromPeer st f.header g →
      let kind := f.kind.toNat
      (s.lc.station = .listening ∨ (g.dest ≠ 0 ∧ g.dest ≠ st.station) →
        exec (.headerOnlyFrame t f) s = .next (finish (heardFrom s st t g).drainTest)) ∧
      (s.lc.onLine = true → g.dest = 0 ∨ g.dest = st.station →
        (parseBody kind f.body).bind RawBody.read = none ∨ (kind = 0x01 ∧ g.dest ≠ 0) ∨ (kind ≠ 0x01 ∧ g.dest = 0) ∨
          ((kind = 0x01 ∨ kind = 0x20 ∨ kind = 0x21) ∧ g.tag ≠ 0) ∨
          (kind ≠ 0x01 ∧ kind ≠ 0x20 ∧ kind ≠ 0x21 ∧ g.tag = 0) →
        let v := (heardFrom s st t g).protocolFault g.source
        let request := (kind = 0x10 ∨ kind = 0x12 ∨ kind = 0x14 ∨ kind = 0x16) ∧ g.tag ≠ 0
        (request →
          exec (.malformedFrame t f) s =
            .next (finish (v.offerAnswer ⟨g.source, g.tag, .refuse kind .malformed 0⟩).drainTest)) ∧
        (¬request → exec (.malformedFrame t f) s = .next (finish v.drainTest)))) ∧
  (∀ (s : State) (p : Nat),
    s.protocolFault p =
      relatch { s with pt := s.pt.map fun e => if e.peer == p then
        { e with
          protocolCount := min 255 (e.protocolCount + 1)
          standing := if e.protocolCount + 1 = 4 then .barred else e.standing } else e }) ∧
  (∀ bits : List Bool,
    (recognise bits = none → classifyBits bits = .fragment) ∧
    (∀ rest, recognise bits = some rest →
      classifyBits bits = classify (packBytes rest) ∧
      ((packBytes rest).length < 10 → classifyBits bits = .fragment) ∧
      (∀ before n after, packBytes rest = before ++ n :: after → before.length = 9 →
        (40 < n.toNat → classifyBits bits = .oversize) ∧
        (n.toNat ≤ 40 → after.length < 2 + n.toNat → classifyBits bits = .fragment) ∧
        (∀ covered c1 c2 more, n.toNat ≤ 40 → packBytes rest = covered ++ c1 :: c2 :: more →
          covered.length = 10 + n.toNat → c1.toNat * 256 + c2.toNat ≠ (crc16 covered).toNat →
          classifyBits bits = .bad)))) ∧
  ∀ (s : State) (t : Moment) (heard : List Bool), s.power = true →
    let now := max s.now t
    (s.lc.receives = true → classifyBits heard = .bad ∨ classifyBits heard = .oversize →
      exec (.badFrame t heard) s =
        .next (finish { s with
          now := now
          lc := { s.lc with badFrames := (s.lc.badFrames.filter fun m => decide (now < m + 1000000)) ++ [now] } })) ∧
    (s.lc.receives = false → classifyBits heard = .bad ∨ classifyBits heard = .oversize →
      exec (.badFrame t heard) s = .next (finish (s.atMoment t))) ∧
    (classifyBits heard = .fragment → exec (.fragment t heard) s = .next (finish (s.atMoment t)))

/-! ### The line and the transmitter -/

/-- The line becomes idle 12 bit times after the last transition and busy at the next, both heads keeping the backoff
slots not yet counted (R77, R80; that a collided answer keeps them too is log 42); the head of the answer queue starts
after the answer gap and its slots and before any request, a request after the request gap, its slots and the request
spacing (R79 to R81), SPACING_EXPIRY being the start that the spacing held back. A LINE_BUSY on a line that is busy is a
further transition, from which the 12 bit times count anew (the model's choice, log 25). Each of the other four, given
where its condition does not hold, moves the clock alone (log 3): LINE_IDLE on an idle line, while a frame is driven or
before its 12 bit times have passed; a start that is not permitted, with an empty queue, with a head whose gap and slots
have not run out, or of a request while an answer may start; and SPACING_EXPIRY with no request start to count from.
LINE_IDLE given late is taken at its moment (log 3). The line counts as busy from the start of an own frame (log 21). -/
def Obligations.LineAndStarts : Prop :=
  ∀ (s : State) (t : Moment), s.power = true →
    let now := max s.now t
    let u := s.atMoment t
    let spend (gap : Moment) : List QFrame → List QFrame
      | [] => []
      | f :: rest => { f with slots := f.slots.map fun k => k - (now - (s.lc.line.since + gap)) / 40 } :: rest
    let busy : State :=
      { u with lc := { s.lc with
          line := ⟨false, now⟩, answerQ := spend 32 s.lc.answerQ, requestQ := spend 80 s.lc.requestQ } }
    let bytes (f : QFrame) : List Byte := frameBytes s.own s.cc.openCycle s.lc.station.sender f.frame
    let ready (gap : Moment) (f : QFrame) : Prop := ∃ k, f.slots = some k ∧ s.lc.line.since + gap + k * 40 ≤ now
    let permitted : Prop := s.lc.onLine = true ∧ s.lc.line.idle = true ∧ s.lc.tx = .idle
    let mayStart (gap : Moment) (q : List QFrame) : Prop := permitted ∧ ∃ f rest, q = f :: rest ∧ ready gap f
    (s.lc.line.idle = false → s.lc.tx = .idle → s.lc.line.since + 24 ≤ now →
      exec (.lineIdle t) s = .next (finish { u with lc := { s.lc with line := ⟨true, now⟩ } })) ∧
    (s.lc.line.idle = true ∨ s.lc.tx ≠ .idle ∨ now < s.lc.line.since + 24 →
      exec (.lineIdle t) s = .next (finish u)) ∧
    (s.lc.line.idle = true → exec (.lineBusy t) s = .next (finish busy)) ∧
    (s.lc.line.idle = false →
      exec (.lineBusy t) s = .next (finish { u with lc := { s.lc with line := ⟨false, now⟩ } })) ∧
    (∀ f rest, permitted → s.lc.answerQ = f :: rest → ready 32 f →
      exec (.answerStart t) s =
          .next (finish { busy with lc := { busy.lc with tx := .driving true (bytes f) now } }) ∧
        exec (.requestStart t) s = .next (finish u)) ∧
    (∀ st f rest, s.tp.settings = some st → permitted → (∀ a more, s.lc.answerQ = a :: more → ¬ready 32 a) →
      s.lc.requestQ = f :: rest → ready 80 f →
      let started : State :=
        { busy with lc := { busy.lc with tx := .driving false (bytes f) now, lastRequest := some now } }
      (s.lc.lastRequest = none → exec (.requestStart t) s = .next (finish started)) ∧
      ∀ m, s.lc.lastRequest = some m →
        (m + st.requestSpacing * 1000 ≤ now →
          exec (.requestStart t) s = .next (finish started) ∧ exec (.spacingExpiry t) s = .next (finish started)) ∧
        (now < m + st.requestSpacing * 1000 →
          exec (.requestStart t) s = .next (finish u) ∧ exec (.spacingExpiry t) s = .next (finish u))) ∧
    (¬mayStart 32 s.lc.answerQ → exec (.answerStart t) s = .next (finish u)) ∧
    (mayStart 32 s.lc.answerQ ∨ ¬mayStart 80 s.lc.requestQ ∨ s.tp.settings = none →
      exec (.requestStart t) s = .next (finish u) ∧ exec (.spacingExpiry t) s = .next (finish u)) ∧
    (s.lc.lastRequest = none → exec (.spacingExpiry t) s = .next (finish u))

/-- A collision stops the frame: its attempt number rises and it draws slots anew, or at its tenth attempt it is
discarded, SEND_FAILED is true and its owner told (R79, R80, R82). A frame driven to its end leaves its queue and its
owner is told (R82, R84, R107, R132); its last transition was at the middle of its last bit cell (R76, R77; log 21). The
slots drawn are free values below 2 to the attempt number (log 6), drawn in the collision's own step (log 7). A
COLLISION after the frame's end, a FRAME_SENT before it, and both with the transmitter idle move the clock alone (log
3). -/
def Obligations.CollisionsAndSentFrames : Prop :=
  (∀ (s : State) (t : Moment) (answer : Bool) (bytes : List Byte) (start : Moment), s.power = true →
    s.lc.tx = .driving answer bytes start →
    let now := max s.now t
    let last := start + (24 + 8 * bytes.length) * 2
    let stopped (m : Moment) : State :=
      { s with now := now, lc := { s.lc with tx := .idle, line := ⟨false, max s.lc.line.since m⟩ } }
    let drawn (n : Nat) : Option Nat := some (Config.freeDraw s.draws % 2 ^ min n 8)
    (now ≤ last → answer = true → ∀ f rest, s.lc.answerQ = f :: rest →
      (f.attempt < 10 →
        exec (.collision t) s =
          .next (finish ({ stopped now with
            draws := s.draws + 1
            lc := { (stopped now).lc with
              answerQ := { f with attempt := f.attempt + 1, slots := drawn (f.attempt + 1) } :: rest } :
            State }.drainTest))) ∧
      (10 ≤ f.attempt →
        exec (.collision t) s =
          .next (finish ({ stopped now with
            lc := { (stopped now).lc with answerQ := rest, sendFailed := some (now + 1000000) } :
            State }.drainTest)))) ∧
    (now ≤ last → answer = false → ∀ f rest, s.lc.requestQ = f :: rest →
      (f.attempt < 10 →
        exec (.collision t) s =
          .next (finish ({ stopped now with
            draws := s.draws + 1
            lc := { (stopped now).lc with
              requestQ := { f with attempt := f.attempt + 1, slots := drawn (f.attempt + 1) } :: rest } :
            State }.drainTest))) ∧
      (10 ≤ f.attempt →
        exec (.collision t) s =
          .next (finish (((((stopped now).setRequestQ rest).raiseSendFailed).reportDiscard
            f.frame).fillRequests).drainTest))) ∧
    (last ≤ now → answer = true →
      exec (.frameSent t) s =
        .next (finish ({ stopped (last - 1) with
          lc := { (stopped (last - 1)).lc with answerQ := s.lc.answerQ.tail } : State }.drainTest))) ∧
    (last ≤ now → answer = false → ∀ f rest, s.lc.requestQ = f :: rest →
      exec (.frameSent t) s =
        .next (finish ((((stopped (last - 1)).setRequestQ rest).reportSent f.frame last).fillRequests).drainTest)) ∧
    (last < now → exec (.collision t) s = .next (finish (s.atMoment t).drainTest)) ∧
    (now < last → exec (.frameSent t) s = .next (finish (s.atMoment t).drainTest))) ∧
  (∀ (s : State) (t : Moment), s.power = true → s.lc.tx = .idle →
    exec (.collision t) s = .next (finish (s.atMoment t).drainTest) ∧
      exec (.frameSent t) s = .next (finish (s.atMoment t).drainTest)) ∧
  ∀ (s : State) (f : Frame) (m : Moment),
    let due (x : Moment) : State :=
      { s with xt := { s.xt with
          exchanges := s.xt.exchanges.map fun e => if e.tag == f.tag then
            (if e.state == .waiting then { e with replyDeadline := some (x + 50000) } else e) else e } }
    (f.body.ofExchange = true → s.reportSent f m = due m ∧ s.reportDiscard f = due s.now) ∧
    (∀ c r l, f.body = .tally c r l →
      s.reportSent f m =
          { s with pt := s.pt.map fun e => if e.peer == f.dest then
              { e with tallyOwed := e.tallyOwed && c != e.sLast } else e } ∧
        s.reportDiscard f = s.askTally f.dest) ∧
    (f.body = .check → s.reportSent f m = s ∧ s.reportDiscard f = s.askCheck f.dest) ∧
    (f.body = .beacon → s.reportSent f m = s ∧ s.reportDiscard f = s)

/-- The queues (R80, R83, R84): an answer joins the tail or is dropped; a request frame joins the tail, a BEACON the
head; a place that is free is filled from the held beacon, the marks and the exchanges in their order;
REQUEST_QUEUE_FILL fills places one after another until no source could fill one. Room is also filled in the step that
makes it (log 17). A new head draws its slots when it comes to the head (log 7), a free value below 2 to the attempt
number (log 6). The frame of an exchange goes to its home station with its tag and asks, takes, frees or credits with its
parameters, a PROBE asking for 0.00 with a least of 0.00 (R103). -/
def Obligations.QueuesFillInOrder : Prop :=
  (∀ e : Exchange, e.frame = ⟨e.home, e.tag, match e.params with
      | .hold a l => .ask e.home e.serial a l
      | .probe => .ask e.home e.serial 0 0
      | .capture i a => .take i e.serial a
      | .void i => .free i e.serial
      | .refund k a => .credit e.serial k a⟩) ∧
  (∀ b : Body, b.ofExchange = true ↔
    (∃ home n a l, b = .ask home n a l) ∨ (∃ i n a, b = .take i n a) ∨ (∃ i n, b = .free i n) ∨
      ∃ n k a, b = .credit n k a) ∧
  (∀ (s : State) (t : Moment), s.power = true →
    exec (.requestQueueFill t) s = .next (finish (s.atMoment t).fillRequests)) ∧
  (∀ s : State, s.fillRequests.fillOne = none ∧ (s.fillOne = none → s.fillRequests = s) ∧
    ∀ u, s.fillOne = some u → s.fillRequests = u.fillRequests) ∧
  (∀ (s : State) (f : Frame),
    (s.lc.answerQ.length < 16 →
      s.offerAnswer f = { s with lc := { s.lc with answerQ := s.lc.answerQ ++ [⟨f, 1, some 0⟩] } }) ∧
    (16 ≤ s.lc.answerQ.length →
      s.offerAnswer f = { s with lc := { s.lc with answerDropped := some (s.now + 1000000) } }) ∧
    s.queueRequest f = s.setRequestQ (s.lc.requestQ ++ [⟨f, 1, none⟩])) ∧
  (∀ (s : State) (f : QFrame) (rest : List QFrame),
    s.setRequestQ [] = { s with lc := { s.lc with requestQ := [] } } ∧
    (f.slots ≠ none → s.setRequestQ (f :: rest) = { s with lc := { s.lc with requestQ := f :: rest } }) ∧
    (f.slots = none →
      s.setRequestQ (f :: rest) =
        { s with
          draws := s.draws + 1
          lc := { s.lc with
            requestQ :=
              { f with slots := some (Config.freeDraw s.draws % 2 ^ min f.attempt 8) } :: rest } }) ∧
    (s.lc.requestQ = f :: rest →
      ((∃ bytes start, s.lc.tx = .driving false bytes start) →
        s.placeBeacon = s.setRequestQ (f :: ⟨⟨0, 0, .beacon⟩, 1, none⟩ :: rest)) ∧
      ((∀ bytes start, s.lc.tx ≠ .driving false bytes start) →
        s.placeBeacon = s.setRequestQ (⟨⟨0, 0, .beacon⟩, 1, none⟩ :: { f with slots := none } :: rest))) ∧
    (s.lc.requestQ = [] → s.placeBeacon = s.setRequestQ [⟨⟨0, 0, .beacon⟩, 1, none⟩])) ∧
  ∀ s : State,
    (s.lc.onLine = false ∨ 16 ≤ s.lc.requestQ.length → s.fillOne = none) ∧
    (s.lc.onLine = true → s.lc.requestQ.length < 16 →
      (s.lc.heldBeacon = true →
        s.fillOne = some { s with lc := { s.lc with heldBeacon := false } : State }.placeBeacon) ∧
      (s.lc.heldBeacon = false →
        let wants (m : WantedMarks) : Prop := (m.tally = true ∧ (s.peer m.peer).sLast ≠ 0) ∨ m.check = true
        (∀ before m after, s.lc.wanted = before ++ m :: after → (∀ x ∈ before, ¬wants x) →
          let e := s.peer m.peer
          (m.tally = true → e.sLast ≠ 0 →
            s.fillOne = some ((s.modWanted m.peer fun x => { x with tally := false }).queueRequest
              ⟨e.peer, 0, .tally e.sLast e.lifeRs e.lifeLs⟩)) ∧
          (m.check = true → m.tally = false ∨ e.sLast = 0 →
            s.fillOne = some ((s.modWanted m.peer fun x => { x with check := false }).queueRequest
              ⟨m.peer, 0, .check⟩))) ∧
        ((∀ m ∈ s.lc.wanted, ¬wants m) →
          let offers (e : Exchange) : Prop :=
            (e.state = .queued ∨ (e.state = .unsure ∧ e.resendWanted = true)) ∧
              ∀ q ∈ s.lc.requestQ, q.frame.tag = e.tag → q.frame.body.ofExchange = false
          (∀ before e after, s.xt.exchanges = before ++ e :: after → (∀ x ∈ before, ¬offers x) →
            offers e →
            s.fillOne = some ((s.modExchange e.tag fun x =>
              if x.state == .queued then { x with state := .waiting, sends := x.sends + 1 }
              else { x with resendWanted := false }).queueRequest e.frame)) ∧
          ((∀ e ∈ s.xt.exchanges, ¬offers e) → s.fillOne = none))))

/-! ### Timers -/

/-- The timers of the link: a beacon time makes a BEACON and sets the next time, the interval a free value within its
range (R89, log 6); the end of the listen makes the station ACTIVE and reports JOINED (R91, R95, R122); SEND_FAILED,
ANSWER_DROPPED and the bad frames end after 1,000 ms (R82, R83, R85; when a bad frame stops counting, log 19); a peer
not heard becomes ABSENT (R121). At the end of the listen the peers are asked, in ascending number, for the TALLY and the
CHECK they are owed (R122). Before its end is reached a timer does nothing (log 3). -/
def Obligations.LinkTimers : Prop :=
  (∀ (s : State) (t : Moment) (peer : BitVec 8), s.power = true →
    let now := max s.now t
    let u := s.atMoment t
    let next (d : Moment) : Moment := d + (950000 + Config.freeDraw s.draws % 100001)
    (∀ d, s.lc.beaconAt = some d → d ≤ now →
      exec (.beaconTime t) s =
        .next (finish ({ u with
          draws := s.draws + 1, lc := { s.lc with beaconAt := some (next d) } : State }.makeBeacon))) ∧
    ((∀ d, s.lc.beaconAt = some d → now < d) → exec (.beaconTime t) s = .next (finish u)) ∧
    (∀ d, s.lc.station = .listening → s.lc.listenEnd = some d → d ≤ now →
      exec (.listenEnd t) s =
        .next (finish ((({ u with
          draws := s.draws + 1
          lc := { s.lc with station := .active, listenEnd := none, beaconAt := some (next d) } :
          State }.makeBeacon).askOwedAll).linkResult .joined))) ∧
    (s.lc.station ≠ .listening ∨ (∀ d, s.lc.listenEnd = some d → now < d) →
      exec (.listenEnd t) s = .next (finish u)) ∧
    (∀ d, s.lc.sendFailed = some d →
      exec (.sendFailedExpiry t) s =
        .next (finish { u with lc := { s.lc with sendFailed := if d ≤ now then none else some d } })) ∧
    (s.lc.sendFailed = none → exec (.sendFailedExpiry t) s = .next (finish u)) ∧
    (∀ d, s.lc.answerDropped = some d →
      exec (.answerDroppedExpiry t) s =
        .next (finish { u with lc := { s.lc with answerDropped := if d ≤ now then none else some d } })) ∧
    (s.lc.answerDropped = none → exec (.answerDroppedExpiry t) s = .next (finish u)) ∧
    exec (.linkNoiseExpiry t) s =
      .next (finish { u with lc := { s.lc with
        badFrames := s.lc.badFrames.filter fun m => decide (now < m + 1000000) } }) ∧
    exec (.peerAbsentTimeout t peer) s =
      .next (finish { u with pt := s.pt.map fun e => if e.peer == peer.toNat then e.absentAt now else e })) ∧
  (∀ s : State,
    let stands : Prop := s.lc.heldBeacon = true ∨ ∃ q ∈ s.lc.requestQ, q.frame.body = .beacon
    (stands → s.makeBeacon = s) ∧ (¬stands → s.lc.requestQ.length < 16 → s.makeBeacon = s.placeBeacon) ∧
      (¬stands → 16 ≤ s.lc.requestQ.length →
        s.makeBeacon = { s with lc := { s.lc with heldBeacon := true } })) ∧
  (∀ s : State,
    s.askOwedAll = ((List.range 63).map fun i => i + 1).foldl (fun u p => (u.askTally p).askCheck p) s) ∧
  ∀ (e : PeerEntry) (now : Moment),
    (∀ d, e.presence = .present → e.lastHeard = some d → d ≤ now →
      e.absentAt now = { e with presence := .absent, lastHeard := none }) ∧
    (e.presence ≠ .present ∨ (∀ d, e.lastHeard = some d → now < d) → e.absentAt now = e)


/-! ### Settlement cycles -/

/-- CLOSE_DAY by phase (R142, R143), the catch-up close that a header of a later cycle asks for (R141, R142), and
PENDING_CLOSE (R143). What a close changes: every peer's open figures become its sealing figures, its protocol count is
0 and its exposure is formed afresh, a saturation reported (R6, R124, R125); the own totals move to the sealing set and the cursor is set (R30,
R34); the cycle, its rate, the window and the phase (R138, R140, R144); the schedule (R154); and the latches (R172).
With no card the sweep ends at once (R34). PENDING_CLOSE with no target pending, or in another phase than STEADY, moves
the clock alone (log 3); the close is also made in the step that completes the seal (log 17). -/
def Obligations.ClosesAreMade : Prop :=
  ((∀ (s : State) (st : Settings) (t : Moment) (token : Token), tillReady s st →
     let o := s.cc.openCycle
     let u := begun s t
     let said (v : State) (status : Status) (vs : List Value) : Prop :=
       exec (.closeDay t token) s = .next (finish (answered v token status vs))
     let target : Nat := match s.cc.pendingTarget with | some x => max x (o + 1) | none => o + 1
     let kept : State := { u with cc := { s.cc with pendingTarget := some target } }
     let closed (forced : Bool) : List Value := [.cycle (some o), .cycle (some (o + 1)), .flag forced]
     (999999 ≤ o → said u .cycleLimit []) ∧
     (o < 999999 →
       (s.cc.phase = .steady → said (u.closeAt st (o + 1)) .ok (closed false)) ∧
       (s.cc.phase = .sweeping → said kept .closePending [.cycle (some target)]) ∧
       (s.cc.phase = .sealing →
         (s.su.grantSlot ≠ none →
           said (kept.makeSeal st s.cc.sealTimer.isSome) .ok (closed s.cc.sealTimer.isSome)) ∧
         (s.su.grantSlot = none → said (u.makeSeal st s.cc.sealTimer.isSome) .slotsFull [])) ∧
       (s.cc.phase = .deferred → said u .slotsFull []))) ∧
   (∀ (s : State) (st : Settings) (x : Nat),
     let target : Nat := match s.cc.pendingTarget with | some y => max y x | none => x
     let kept : State := { s with cc := { s.cc with pendingTarget := some target } }
     (s.cc.phase = .steady → s.catchUp st x = s.closeAt st x) ∧
     (s.cc.phase = .sweeping ∨ s.cc.phase = .deferred → s.catchUp st x = kept) ∧
     (s.cc.phase = .sealing → s.catchUp st x = kept.makeSeal st s.cc.sealTimer.isSome)) ∧
   (∀ (s : State) (st : Settings) (t : Moment) (h : RxHeader) (g : Header) (kind : Byte) (body : List Byte),
     s.power = true → s.tp.settings = some st → s.lc.receives = true → fromPeer st h g → g.dest ≠ 0 →
     g.dest ≠ st.station → s.cc.openCycle < g.cycle →
     exec (.headerOnlyFrame t ⟨h, kind, body⟩) s =
       .next (finish (relatch (((s.atMoment t).hearPeer g).catchUp st g.cycle)).drainTest)) ∧
   ∀ (s : State) (st : Settings) (t : Moment), s.power = true → s.tp.settings = some st →
     (∀ x, s.cc.phase = .steady → s.cc.pendingTarget = some x →
       exec (.pendingClose t) s = .next (finish ((s.atMoment t).closeAt st x))) ∧
     (s.cc.phase ≠ .steady ∨ s.cc.pendingTarget = none →
       exec (.pendingClose t) s = .next (finish (s.atMoment t)))) ∧
  ∀ (s : State) (st : Settings) (x : Nat),
    let u := s.closeAt st x
    ChangesOnly [.peers, .saturation, .money, .cursor, .cycles, .latched] s u ∧
    u.pt = (s.pt.map fun e =>
      (if e.peer = st.station then e
        else { e with sealF := some e.openF, openF := .zero, protocolCount := 0 }).withExposure st
          (s.heldSum e.peer)) ∧
    (u.ct.openOwn = .zero ∧ u.ct.sealOwn = some s.ct.openOwn ∧ u.ct.float = s.ct.float ∧ u.ct.life = s.ct.life) ∧
    (u.cc.openCycle = x ∧ u.cc.sealing = some ⟨s.cc.openCycle, s.cc.active.getD ⟨0, 0⟩, false⟩ ∧
      u.cc.sealTimer = some (s.now + st.sealWindow * 1000000) ∧ u.cc.pendingTarget = none) ∧
    (let parts (e : PeerEntry) : Int :=
       if e.peer = st.station then max e.openF.l.val 0 + (match e.sealF with | some f => max f.l.val 0 | none => 0)
       else max e.openF.l.val 0
     u.mu.saturation = true ↔
       s.mu.saturation = true ∨ ∃ e ∈ s.pt, overflows (parts e + (s.heldSum e.peer : Int)) = true) ∧
    u.mu.latched = s.mu.latched ||| (s.mu.detect &&& s.mu.latch &&& liveBits u) ∧
    (s.ct.cards ≠ [] → u.cc.phase = .sweeping ∧ u.ct.cursor = some 0) ∧
    (s.ct.cards = [] → u.cc.phase = .sealing ∧ u.ct.cursor = none) ∧
    (u.cc.schedule = s.cc.schedule.filter fun e => decide (x < e.effective)) ∧
    (∀ due later last, s.cc.schedule = due ++ last :: later → last.effective ≤ x → (∀ e ∈ later, x < e.effective) →
      u.cc.active = some last.rate) ∧
    ((∀ e ∈ s.cc.schedule, x < e.effective) → u.cc.active = s.cc.active)

/-- One step of the sweep (R34, R35): the next record above the cursor lapses, is purged or is marked, and the cursor
moves to it; when no record lies above it, the sweep ends: to SEALING, or to the seal when the window is over or a
target is pending (R139, R146). The end within the last step is the model's (log 18), and outside SWEEPING or without a
cursor SWEEP_STEP moves the clock alone (log 3). -/
def Obligations.SweepStepExaminesARecord : Prop :=
  (∀ (s : State) (st : Settings) (t : Moment), s.power = true → s.tp.settings = some st →
    let u := s.atMoment t
    let run := exec (.sweepStep t) s
    (s.cc.phase ≠ .sweeping ∨ s.ct.cursor = none → run = .next (finish u)) ∧
    ∀ k, s.cc.phase = .sweeping → s.ct.cursor = some k →
      ((∀ c ∈ s.ct.cards, c.serial ≤ k) → run = .next (finish (u.sweepEnd st))) ∧
      ∀ below c above, s.ct.cards = below ++ c :: above → (∀ x ∈ below, x.serial ≤ k) → k < c.serial →
        let v := (u.examine st c).setCursor (some c.serial)
        ((∃ x ∈ s.ct.cards, c.serial < x.serial) → run = .next (finish v)) ∧
        ((∀ x ∈ s.ct.cards, x.serial ≤ c.serial) → run = .next (finish (v.sweepEnd st)))) ∧
  (∀ (s : State) (st : Settings) (c : Card),
    let o := s.cc.openCycle
    (c.sweepMark = o → s.examine st c = s) ∧
    (c.sweepMark ≠ o → c.due o = true → c.openHolds = 0 → s.examine st c = s.lapseCard c) ∧
    (c.sweepMark ≠ o → c.state = .closed ∨ c.state = .lapsed → st.retention < o → c.lastChange + st.retention ≤ o →
      s.examine st c =
        { s with ct := { s.ct with cards := s.ct.cards.filter fun x => x.serial != c.serial } }) ∧
    (c.sweepMark ≠ o → c.due o = false ∨ c.openHolds ≠ 0 →
      (c.state ≠ .closed ∧ c.state ≠ .lapsed) ∨ o ≤ st.retention ∨ o < c.lastChange + st.retention →
      s.examine st c =
        { s with ct := { s.ct with
            cards := s.ct.cards.map fun x => if x.serial == c.serial then { x with sweepMark := o } else x } })) ∧
  ∀ (s : State) (st : Settings),
    let u : State := { s with ct := { s.ct with cursor := none } }
    (s.cc.pendingTarget = none → s.cc.sealTimer ≠ none →
      s.sweepEnd st = { u with cc := { s.cc with phase := .sealing } }) ∧
    (s.cc.pendingTarget ≠ none ∨ s.cc.sealTimer = none → s.sweepEnd st = u.makeSeal st s.cc.sealTimer.isSome)

/-- When a seal is made (R140, R143, R146, R147): SEAL_WINDOW_EXPIRY, SEAL and DEFERRED_SEAL_COMPLETION; the slot a seal
or a REPORT is granted (R162, R163); a seal that is granted none is deferred. A seal is also made in the step that
brings its cause about (log 17). Each of the three, given where its condition does not hold, moves the clock alone (log
3). -/
def Obligations.SealsAreMade : Prop :=
  (∀ (s : State) (st : Settings) (t : Moment), s.power = true → s.tp.settings = some st →
    let u := s.atMoment t
    let ended : Prop := ∀ d, s.cc.sealTimer = some d → d ≤ max s.now t
    let stopped : State := { u with cc := { s.cc with sealTimer := none } }
    (ended → s.cc.sealTimer ≠ none →
      (s.cc.phase = .sweeping → exec (.sealWindowExpiry t) s = .next (finish stopped)) ∧
      (s.cc.phase = .sealing → exec (.sealWindowExpiry t) s = .next (finish (stopped.makeSeal st false)))) ∧
    (s.cc.sealTimer = none ∨ ¬ended → exec (.sealWindowExpiry t) s = .next (finish u)) ∧
    (s.cc.phase = .sweeping ∨ s.cc.phase = .sealing → s.ct.cursor = none →
      (ended → exec (.makeSeal t) s = .next (finish (u.makeSeal st false))) ∧
      (¬ended → s.cc.pendingTarget ≠ none → exec (.makeSeal t) s = .next (finish (u.makeSeal st true))) ∧
      (¬ended → s.cc.pendingTarget = none → exec (.makeSeal t) s = .next (finish u))) ∧
    (s.cc.phase = .steady ∨ s.cc.phase = .deferred ∨ s.ct.cursor ≠ none →
      exec (.makeSeal t) s = .next (finish u)) ∧
    (∀ x no, s.cc.phase = .deferred → s.cc.sealing = some x → s.su.grantSlot = some no →
      exec (.deferredSealCompletion t) s = .next (finish ((u.completeSeal st x no).pendingClose st))) ∧
    (s.cc.phase ≠ .deferred ∨ s.cc.sealing = none ∨ s.su.grantSlot = none →
      exec (.deferredSealCompletion t) s = .next (finish u))) ∧
  (∀ (s : State) (st : Settings) (forced : Bool) (x : SealingSet), s.cc.sealing = some x →
    let y : SealingSet := { x with forced := forced }
    let u : State := { s with cc := { s.cc with sealing := some y, sealTimer := none } }
    (∀ no, s.su.grantSlot = some no → s.makeSeal st forced = (u.completeSeal st y no).pendingClose st) ∧
    (s.su.grantSlot = none → s.makeSeal st forced = { u with cc := { u.cc with phase := .deferred } })) ∧
  (∀ su : StatementUnit,
    let free (no : SlotNo) : Prop := ∀ x ∈ su.slots, x.no ≠ no
    (free .one → su.grantSlot = some .one) ∧ (¬free .one → free .two → su.grantSlot = some .two) ∧
    (¬free .one → ¬free .two →
      ((∀ x ∈ su.slots, x.statement.kind = .sealed) → su.grantSlot = none) ∧
      ∀ before x after, su.slots = before ++ x :: after → (∀ y ∈ before, y.statement.kind = .sealed) →
        x.statement.kind = .report → su.grantSlot = some x.no)) ∧
  ∀ (s : State) (st : Settings),
    (∀ x, s.cc.phase = .steady → s.cc.pendingTarget = some x → s.pendingClose st = s.closeAt st x) ∧
    (s.cc.phase ≠ .steady ∨ s.cc.pendingTarget = none → s.pendingClose st = s)

/-- What the completion of a seal does (R148, R149, R152): its statement stands as the newest, the sealing sets are
gone, the cycle is STEADY; every peer's lifeR_s, lifeL_s and s_last are those of the sealed cycle, its pending tally is
tested again and its exposure formed afresh; what saturates on the way is reported (R6), and the latches are set (R172);
then each peer, in ascending number, is
asked for the TALLY it is owed (`State.askTallies`, R132, R148), which changes no more than queues and marks. -/
def Obligations.SealCompletionSettles : Prop :=
  (∀ (s : State) (st : Settings) (x : SealingSet) (no : SlotNo),
    let u := s.completeSeal st x no
    let sealed (e : PeerEntry) : PeerEntry :=
      { e with
        lifeRs := e.lifeR.diff e.openF.r
        lifeLs := e.lifeL.diff e.openF.l
        sLast := x.cycle
        tallyOwed := (e.lifeR.diff e.openF.r) ≠ .zero || (e.lifeL.diff e.openF.l) ≠ .zero
        sealF := none }
    ChangesOnly
      [.statements, .peers, .saturation, .money, .cycles, .latched, .requests, .draws, .beacons, .wanted, .exchanges]
      s u ∧
    u.su = s.su.place no ((s.sealSource st x).build s.su.nextNumber) ∧
    (u.ct.sealOwn = none ∧ u.ct.openOwn = s.ct.openOwn ∧ u.ct.float = s.ct.float ∧ u.ct.life = s.ct.life) ∧
    u.cc = { s.cc with sealing := none, phase := .steady, sealTimer := none } ∧
    u.pt = (s.pt.map fun e =>
      if e.peer = st.station then e.withExposure st (s.heldSum e.peer)
      else ((sealed e).withExposure st (s.heldSum e.peer)).retestTally u.cc) ∧
    (let exposed (e : PeerEntry) : Int :=
       max e.openF.l.val 0 + (match e.sealF with | some f => max f.l.val 0 | none => 0) + (s.heldSum e.peer : Int)
     u.mu.saturation = true ↔
       s.mu.saturation = true ∨ (s.sealSource st x).saturates = true ∨
         ∃ e ∈ s.pt, (e.peer = st.station ∧ overflows (exposed e) = true) ∨
           (e.peer ≠ st.station ∧
             (overflows (e.lifeR.val - e.openF.r.val) = true ∨ overflows (e.lifeL.val - e.openF.l.val) = true ∨
               overflows (exposed (sealed e)) = true ∨
               ∃ y, e.pendingTally = some y ∧ (sealed e).takeTallySat u.cc y = true))) ∧
    u.mu.latched = s.mu.latched ||| (s.mu.detect &&& s.mu.latch &&& liveBits u) ∧
    u = ({ u with lc := s.lc, xt := s.xt, draws := s.draws } : State).askTallies st) ∧
  (∀ (s : State) (st : Settings),
    s.askTallies st = ((s.pt.filter fun e => e.peer != st.station).map PeerEntry.peer).foldl State.askTally s) ∧
  ∀ (cc : Cycles) (e : PeerEntry),
    (e.pendingTally = none → e.retestTally cc = e) ∧
    ∀ y, e.pendingTally = some y →
      (y.cycle < e.sLast → e.retestTally cc = { e with pendingTally := none }) ∧
      (e.sLast ≤ y.cycle → y.cycle < cc.openCycle → (∀ x, cc.sealing = some x → y.cycle < x.cycle) →
        e.retestTally cc = e.takeTally cc y) ∧
      (e.sLast ≤ y.cycle → cc.openCycle ≤ y.cycle → e.retestTally cc = e)

/-! ### Statements -/

/-- How a statement is built (R157, R158, R160, R161): G and Λ are the chains of ADD over the peers in their order,
which stay at the limit value once a step saturates (R4, note 3); K is the sum of the counts, held at 999,999 and marked
above it, and marked when a count is; C and N follow R12; a line stands for each peer with a figure that is non-zero or
marked; the direction comes from N, and so does the amount due, its magnitude, or 9,999,999,999.99 when N is marked
(R157, note 3; that this holds of an N marked below the limit too is log 44); and the saturated flag is set when a
figure that enters the statement carries a mark, or a step saturates, and clear otherwise. -/
def Obligations.StatementsAreBuilt : Prop :=
  (∀ (x : StatementSource) (number : Nat),
    let y := x.build number
    let silent (f : Figures) : Prop := f = .zero
    (y.kind = x.kind ∧ y.number = number ∧ y.cycle = x.cycle ∧ y.forced = x.forced ∧ y.rate = x.rate ∧
      y.own = x.own) ∧
    y.g = (chainSum (x.entries.map fun e => e.figures.r)).total ∧
    y.lam = (chainSum (x.entries.map fun e => e.figures.l)).total ∧
    y.k.n = min 999999 (x.entries.map fun e => e.figures.k.n).sum ∧
    (y.k.mark = true ↔
      999999 < (x.entries.map fun e => e.figures.k.n).sum ∨ ∃ e ∈ x.entries, e.figures.k.mark = true) ∧
    y.c = commission y.g y.lam y.k x.rate ∧ y.n = netOf y.g y.c y.lam ∧
    (y.direction = .stationPays ↔ y.n.val < 0) ∧
    y.amountDue = (if y.n.mark = true then 999999999999 else y.n.val.natAbs) ∧
    y.lines.Sublist x.entries ∧ (∀ e ∈ x.entries, e ∈ y.lines ↔ ¬silent e.figures) ∧
    let marked (f : Figures) : Prop :=
      f.r.mark = true ∨ f.l.mark = true ∨ f.k.mark = true ∨ f.lateCount.mark = true ∨ f.lateAmount.mark = true
    let steps : Prop :=
      (chainSum (x.entries.map fun e => e.figures.r)).stuck = true ∨
        (chainSum (x.entries.map fun e => e.figures.l)).stuck = true ∨
        999999 < (x.entries.map fun e => e.figures.k.n).sum ∨ overflows (y.g.val - y.c.val) = true ∨
        overflows (saturate (y.g.val - y.c.val) - y.lam.val) = true
    (x.saturates = true ↔ steps) ∧
    (y.saturated = true ↔
      (∃ l ∈ y.lines, marked l.figures) ∨
        (y.own.s.mark = true ∨ y.own.u.mark = true ∨ y.own.x.mark = true ∨ y.own.q.mark = true) ∨
        (y.g.mark = true ∨ y.k.mark = true ∨ y.lam.mark = true ∨ y.c.mark = true ∨ y.n.mark = true) ∨ steps)) ∧
  (∀ ts : List Total,
    (∀ i, i ≤ ts.length → overflows ((ts.take i).map Total.val).sum = false) →
    (chainSum ts).total = ⟨(ts.map Total.val).sum, ts.any Total.mark⟩ ∧ (chainSum ts).stuck = false) ∧
  (chainSum [] = ⟨0, false, false⟩ ∧ ∀ ts x, chainSum (ts ++ [x]) = (chainSum ts).add x) ∧
  (∀ (c : Chain) (x : Total),
    (c.stuck = true → c.add x = ⟨c.val, true, true⟩) ∧
    (c.stuck = false → overflows (c.val + x.val) = false → c.add x = ⟨c.val + x.val, c.mark || x.mark, false⟩) ∧
    (c.stuck = false → 999999999999 < c.val + x.val → c.add x = ⟨999999999999, true, true⟩) ∧
    (c.stuck = false → c.val + x.val < -999999999999 → c.add x = ⟨-999999999999, true, true⟩)) ∧
  ∀ (s : State) (st : Settings) (x : SealingSet),
    let peers := s.pt.filter fun e => e.peer != st.station
    s.sealSource st x =
        { kind := .sealed, cycle := x.cycle, forced := x.forced, rate := x.rate, own := s.ct.sealOwn.getD .zero,
          entries := peers.map fun e => ⟨e.peer, e.sealF.getD .zero⟩ } ∧
      s.reportSource st =
        { kind := .report, cycle := s.cc.openCycle, forced := false, rate := s.cc.active.getD ⟨0, 0⟩,
          own := s.ct.openOwn, entries := peers.map fun e => ⟨e.peer, e.openF⟩ }

/-- REPORT and READ_STATEMENT (R159, R163 to R167): a report stands as the newest statement or is lost; the oldest
statement is read part by part, and a read of its last part frees its slot, which completes a deferred seal. Part 0 is
the header and each other part a peer line, their values those of R165 and R158 in their order. -/
def Obligations.ReportsAndReads : Prop :=
  ((∀ x : Statement,
      x.headerValues =
        [.num1 (match x.kind with | .sealed => 1 | .report => 2), .cycle (some x.cycle), .flag x.forced,
          .flag x.saturated, .num2 x.rate.bp, .num1 x.rate.fee, .marked x.own.s, .marked x.own.u, .marked x.own.x,
          .marked x.own.q, .marked x.g, .count x.k, .marked x.c, .marked x.lam, .marked x.n,
          .num1 (match x.direction with | .mallPays => 1 | .stationPays => 2), .amount x.amountDue,
          .num2 x.lines.length]) ∧
    ∀ l : PeerLine,
      l.values =
        [.num1 l.peer, .marked l.figures.r, .marked l.figures.l, .count l.figures.k, .count l.figures.lateCount,
          .marked l.figures.lateAmount]) ∧
  (∀ (s : State) (st : Settings) (t : Moment) (token : Token), tillReady s st →
    let u := begun s t
    (∀ no, s.su.grantSlot = some no →
      let x := s.reportSource st
      exec (.report t token) s =
        .next (finish (answered
          { u with
            su := s.su.place no (x.build s.su.nextNumber)
            mu := { s.mu with saturation := s.mu.saturation || x.saturates } }
          token .ok [.num2 s.su.nextNumber, .cycle (some s.cc.openCycle)]))) ∧
    (s.su.grantSlot = none →
      exec (.report t token) s =
        .next (finish (answered { u with su := { s.su with reportLost := true } } token .slotsFull []))) ∧
    (s.su.slots = [] → exec (.readStatement t token) s = .next (finish (answered u token .nothing []))) ∧
    ∀ x rest, s.su.slots = x :: rest →
      let k := s.su.readPos
      let part : List Value := if k = 0 then x.statement.headerValues
        else match x.statement.lines[k - 1]? with | some l => l.values | none => []
      let values : List Value := .num2 x.statement.number :: .num2 k :: part
      (k < x.statement.lines.length →
        exec (.readStatement t token) s =
          .next (finish (answered { u with su := { s.su with readPos := k + 1 } } token .ok values))) ∧
      (x.statement.lines.length ≤ k →
        exec (.readStatement t token) s =
          .next (finish (answered
            ({ u with su := { s.su with slots := rest, readPos := 0, reportLost := false } :
              State }.completeDeferred st)
            token .ok values)))) ∧
  (∀ (su : StatementUnit) (no : SlotNo) (x : Statement),
    let y := su.place no x
    y.slots = (su.slots.filter fun z => z.no != no) ++ [⟨no, x⟩] ∧
      y.nextNumber = (if su.nextNumber = 65535 then 1 else su.nextNumber + 1) ∧ y.reportLost = su.reportLost ∧
      ((∀ z, su.slots.head? = some z → z.no ≠ no) → y.readPos = su.readPos) ∧
      (∀ z, su.slots.head? = some z → z.no = no → y.readPos = 0)) ∧
  ∀ (s : State) (st : Settings),
    (∀ x no, s.cc.phase = .deferred → s.cc.sealing = some x → s.su.grantSlot = some no →
      s.completeDeferred st = (s.completeSeal st x no).pendingClose st) ∧
    (s.cc.phase ≠ .deferred ∨ s.cc.sealing = none ∨ s.su.grantSlot = none → s.completeDeferred st = s)

/-! ### Rates, peers and the monitor at the till -/

/-- SET_RATE (R155): the entry is staged in ascending order of its cycle over one of the same cycle, at most two; each
refusal changes nothing but the port. -/
def Obligations.SetRateStages : Prop :=
  ∀ (s : State) (st : Settings) (t : Moment) (token : Token) (rate : BitVec 16) (fee : BitVec 8) (effective : CycleField)
    (x : Nat), tillReady s st → readCycle effective = some x →
    let e : Staged := ⟨x, ⟨rate.toNat, fee.toNat⟩⟩
    let refused (status : Status) : Prop :=
      exec (.setRate t token rate fee effective) s = .next (finish (answered (begun s t) token status []))
    let staged (l : List Staged) : Prop :=
      exec (.setRate t token rate fee effective) s =
        .next (finish (answered { begun s t with cc := { s.cc with schedule := l } } token .ok
          ([.num2 (s.cc.active.getD ⟨0, 0⟩).bp, .num1 (s.cc.active.getD ⟨0, 0⟩).fee, .num1 l.length] ++
            (l.map fun y => [.cycle (some y.effective), .num2 y.rate.bp, .num1 y.rate.fee]).flatten)))
    (1500 < rate.toNat ∨ 99 < fee.toNat ∨ x = 0 → refused .badSetting) ∧
    (rate.toNat ≤ 1500 → fee.toNat ≤ 99 → x ≠ 0 →
      (x ≤ s.cc.openCycle → refused .pastCycle) ∧
      (s.cc.openCycle < x →
        (s.cc.schedule = [] → staged [e]) ∧
        (∀ a, s.cc.schedule = [a] →
          staged (if x < a.effective then [e, a] else if x = a.effective then [e] else [a, e])) ∧
        ∀ a b, s.cc.schedule = [a, b] → a.effective < b.effective →
          (x = a.effective → staged [e, b]) ∧ (x = b.effective → staged [a, e]) ∧
            (x ≠ a.effective → x ≠ b.effective → refused .scheduleFull)))

/-- PEER_STATUS and STATUS change nothing but the port and answer the lists of R134 and R183; CLEAR_PEER (R129), ADJUST
(R133) and CLEAR_MONITOR (R173). A peer parameter outside 1 to 63, or the own number, is BAD_SETTING (R119). The model's
own: the order of ADJUST's values (log 12), the time since a peer was heard rounded down (log 24), a GOOD or WATCH
peer's count kept by CLEAR_PEER (log 37), the latches of CLEAR_MONITOR as one list (log 38), and bits 13 to 15 of enables
and source lists given as 0 (log 45). The amounts of ADJUST are read by R97: twelve digits with sign byte 00 or 01. -/
def Obligations.PeersAndMonitorAtTheTill : Prop :=
  (∀ (a : AmountField) (v : Int),
    readSigned a = some v ↔ ∃ n, bcdNat? 12 (a.toNat % 2 ^ 48) = some n ∧
      ((a.toNat / 2 ^ 48 = 0 ∧ v = n) ∨ (a.toNat / 2 ^ 48 = 1 ∧ v = -(n : Int)))) ∧
  (∀ (now : Moment) (e : PeerEntry) (held : Nat),
    let figures (f : Figures) : List Value :=
      [.marked f.r, .marked f.l, .count f.k, .count f.lateCount, .marked f.lateAmount]
    let ago : Nat := match e.lastHeard with | some d => (now + 5000000 - d) / 1000 | none => 65535
    let heardAs : Nat := match e.lastState with | some .active => 1 | some .draining => 2 | none => 0
    peerValues now e held =
      [.num1 (match e.presence with | .unknown => 0 | .present => 1 | .absent => 2), .num2 ago, .num1 heardAs,
        .cycle e.lastCycle,
        .num1 (match e.standing with | .good => 0 | .watch => 1 | .barred => 2 | .recheck => 3),
        .num1 e.protocolCount] ++
      (match e.lastMismatch with
        | some (r, l) => [.flag true, .marked r, .marked l]
        | none => [.flag false, .marked .zero, .marked .zero]) ++
      [.marked e.exposure, .num1 (if e.tripped = true then 1 else 0), .amount held] ++ figures e.openF ++
      (match e.sealF with | some f => .flag true :: figures f | none => .flag false :: figures .zero) ++
      [.marked e.lifeR, .marked e.lifeL, .marked e.lifeRs, .marked e.lifeLs, .cycle (some e.sLast),
        .flag e.tallyOwed] ++
      (match e.pendingTally with
        | some y => [.flag true, .cycle (some y.cycle), .marked y.r, .marked y.l]
        | none => [.flag false, .cycle (some 0), .marked .zero, .marked .zero])) ∧
  (∀ s : State,
    let source (i : Nat) : List Value := [.flag ((shownBits s).getLsbD i), .flag (s.mu.latched.getLsbD i)]
    let rate (r : Rate) : List Value := [.num2 r.bp, .num1 r.fee]
    let cycles : List Value := match s.tp.settings with
      | some _ =>
        [.num1 (match s.cc.phase with | .steady => 0 | .sweeping => 1 | .sealing => 2 | .deferred => 3),
          .cycle (some s.cc.openCycle), .cycle (s.cc.sealing.map SealingSet.cycle), .cycle s.cc.pendingTarget,
          .flag ((s.cc.sealing.map SealingSet.forced).getD false)] ++ rate (s.cc.active.getD ⟨0, 0⟩) ++
          .num1 s.cc.schedule.length ::
            (s.cc.schedule.map fun y => .cycle (some y.effective) :: rate y.rate).flatten
      | none => [.num1 0, .cycle (some 0), .cycle none, .cycle none, .flag false, .num2 0, .num1 0, .num1 0]
    let slot (no : SlotNo) : Nat := match s.su.slots.find? fun x => x.no == no with
      | some x => (match x.statement.kind with | .report => 1 | .sealed => 2)
      | none => 0
    let oldest : List Value := match s.su.slots.head? with
      | some x =>
        [.flag true, .num1 (match x.statement.kind with | .sealed => 1 | .report => 2), .num2 x.statement.number]
      | none => [.flag false, .num1 0, .num2 0]
    let settings : List Value := match s.tp.settings with
      | some x =>
        [.num1 x.station, .num2 x.cardArea, .num2 x.holdArea, .num2 x.trailArea, .amount x.cardCeiling,
          .amount x.floatLimit, .amount x.exposureLimit, .amount x.exposureBand, .num2 x.holdLifetime,
          .num2 x.sealWindow, .num1 x.requestSpacing, .num1 x.retention, .num2 x.initialRate, .num1 x.initialFee,
          .num2 x.detectEnables.toNat, .num2 x.latchEnables.toNat, .flag x.stopOnError]
      | none =>
        [.num1 0, .num2 0, .num2 0, .num2 0, .amount 0, .amount 0, .amount 0, .amount 0, .num2 0, .num2 0, .num1 0,
          .num1 0, .num2 0, .num1 0, .num2 0, .num2 0, .flag false]
    statusValues s =
      [.flag s.tp.settings.isSome, .num1 ((s.tp.settings.map Settings.station).getD 0),
        .num1 (match s.lc.station with
          | .offline => 0 | .listening => 1 | .active => 2 | .draining => 3 | .withdrawn => 4),
        .flag (stopped s)] ++ cycles ++ [.amount s.ct.float.toNat, .flag (errorFlag s), .flag (warningFlag s)] ++
      (source 0 ++ source 1 ++ source 2 ++ source 3 ++ source 4 ++ source 5 ++ source 6 ++ source 7 ++ source 8 ++
        source 9 ++ source 10 ++ source 11 ++ source 12) ++
      [.num2 s.ct.cards.length, .num2 s.ht.holds.length, .num2 s.ht.openCount, .num2 s.tr.entries.length,
        .num2 s.xt.exchanges.length, .num2 s.tp.results.length, .num1 (slot .one), .num1 (slot .two)] ++ oldest ++
      [.num2 s.su.readPos] ++ settings) ∧
  ∀ (s : State) (t : Moment) (token : Token),
    (s.power = true → s.tp.state = .idle →
      exec (.status t token) s = .next (finish (answered (begun s t) token .ok (statusValues (begun s t))))) ∧
    ∀ st, tillReady s st →
      let u := begun s t
      (∀ p : BitVec 8, p.toNat = 0 ∨ 63 < p.toNat ∨ p.toNat = st.station →
        let refused (i : Instr) : Prop := exec i s = .next (finish (answered u token .badSetting []))
        refused (.peerStatus t token p) ∧ refused (.clearPeer t token p) ∧
          ∀ dR dL, refused (.adjust t token p dR dL)) ∧
      (∀ p : BitVec 8, 1 ≤ p.toNat → p.toNat ≤ 63 → p.toNat ≠ st.station →
        let n := p.toNat
        let e := s.peer n
        exec (.peerStatus t token p) s =
          .next (finish (answered u token .ok (peerValues (max s.now t) e (s.heldSum n)))) ∧
        (e.standing = .good ∨ e.standing = .watch →
          exec (.clearPeer t token p) s = .next (finish (answered u token .ok [.num1 e.standing.code]))) ∧
        (e.standing = .barred →
          exec (.clearPeer t token p) s =
            .next (finish (answered
              ((u.modPeer n fun e => { e with standing := .recheck, protocolCount := 0 }).askCheck n) token .ok
              [.num1 3]))) ∧
        (e.standing = .recheck →
          exec (.clearPeer t token p) s =
            .next (finish (answered ((u.modPeer n fun e => { e with protocolCount := 0 }).askCheck n) token .ok
              [.num1 3]))) ∧
        (∀ (dR dL : AmountField) (r l : Int), readSigned dR = some r → readSigned dL = some l →
          exec (.adjust t token p dR dL) s =
            .next (finish (answered
              { u with
                pt := s.pt.map fun e => if e.peer == n then
                  { e with
                    lifeR := e.lifeR.acc r, lifeRs := e.lifeRs.acc r, lifeL := e.lifeL.acc l,
                    lifeLs := e.lifeLs.acc l } else e
                mu := { s.mu with
                  saturation := s.mu.saturation ||
                    (e.lifeR.accSat r || e.lifeRs.accSat r || e.lifeL.accSat l || e.lifeLs.accSat l) } }
              token .ok
              [.marked (e.lifeR.acc r), .marked (e.lifeRs.acc r), .marked (e.lifeL.acc l),
               .marked (e.lifeLs.acc l)]))) ∧
        (∀ dR dL : AmountField, readSigned dR = none ∨ readSigned dL = none →
          exec (.adjust t token p dR dL) s = .next (finish (answered u token .badSetting [])))) ∧
      ∀ x : BitVec 16,
        let chosen : BitVec 13 := if x.setWidth 13 = 0 then BitVec.allOnes 13 else x.setWidth 13
        let left : BitVec 13 := s.mu.latched &&& ~~~(chosen &&& ~~~liveBits s)
        exec (.clearMonitor t token x) s =
          .next (finish (answered { u with mu := { s.mu with latched := left } } token .ok
            [.num2 left.toNat, .num2 (chosen &&& left).toNat]))

/-! ### Starts and supplies -/

/-- RESTART and NRST make a warm start, WIPE a cold start when nothing is left, and is refused with the number of the
first condition that fails otherwise (R188, R189; its number as one byte: log 12). A rise of main power makes the start
that the retention mark decides (R187, R188, R190; log 16); its fall releases the line (R190), and the loss of the mark
leaves the part without power (R186; log 15). NRST is one command with the time it was low, and below 10 µs it moves the
clock alone (log 30). A cold start leaves every block as `State.reset` has it, and the Link Controller's start state
(R187, R99; that the line then counts as busy since the start is log 8). A warm start keeps the Record Store (R188): the
deadlines of OPEN holds start again in full (R61), the seal window too (R140, R156), the position entries keep their
figures and forget presence (R136), station-source latches clear (R177), the port is IDLE with its buffer empty (R179,
R188). The exchanges go by their kind (R118, `asideExchanges`): UNSURE and DONE are kept, HOLD, PROBE and VOID under way
end NO_ANSWER, an internal VOID leaves for the ended list, CAPTURE and REFUND become UNSURE. The result queue is kept,
and the results that wait enter behind it while there is room (R117, R182), in the order of the model's counter (log
10). -/
def Obligations.StartsAndSupplies : Prop :=
  ((∀ (s : State) (t : Moment), s.power = true →
     let u := s.atMoment t
     (∀ low, exec (.nrst t low) s = .next (finish (if 10 ≤ low then u.warmStart else u))) ∧
     exec (.coldStart t) s = .next (finish u) ∧ exec (.warmStart t) s = .next (finish u) ∧
     exec (.powerLoss t) s = .next (finish { u with power := false, lc := { s.lc with tx := .idle } }) ∧
     (s.tp.state = .idle → ∀ token,
       exec (.restart t token) s = .next (finish (answered (begun s t).warmStart token .ok [])) ∧
       (let kept (n : Nat) : Prop :=
         exec (.wipe t token) s = .next (finish (answered (begun s t) token .notEmpty [.num1 n]))
       (s.ct.float ≠ 0 → kept 1) ∧
       (s.ct.float = 0 →
         (s.ht.openCount ≠ 0 → kept 2) ∧
         (s.ht.openCount = 0 →
           (s.xt.exchanges ≠ [] → kept 3) ∧
           (s.xt.exchanges = [] →
             (s.cc.phase ≠ .steady → kept 4) ∧
             (s.cc.phase = .steady →
               (s.su.slots ≠ [] → kept 5) ∧
               (s.su.slots = [] →
                 exec (.wipe t token) s = .next (finish (answered (begun s t).coldStart token .ok [])))))))))) ∧
   (∀ (s : State) (t : Moment), s.power = false →
     let u : State := { s.atMoment t with power := true }
     let start := if s.retention = true then u.warmStart else u.coldStart
     exec (.coldStart t) s = .next (finish start) ∧ exec (.warmStart t) s = .next (finish start)) ∧
   ∀ (s : State) (t : Moment),
     exec (.retentionLoss t) s =
       .next (finish { s.atMoment t with power := false, retention := false, lc := { s.lc with tx := .idle } })) ∧
  (∀ s : State,
    let u := s.coldStart
    u.tp = State.reset.tp ∧ u.ct = State.reset.ct ∧ u.ht = State.reset.ht ∧ u.tr = State.reset.tr ∧
      u.xt = State.reset.xt ∧ u.lc = Link.reset s.now ∧ u.pt = State.reset.pt ∧ u.cc = State.reset.cc ∧
      u.su = State.reset.su ∧ u.mu = State.reset.mu ∧ u.power = true ∧ u.retention = true ∧
      u.pending = s.pending) ∧
  (∀ s : State,
    let u := s.warmStart
    ChangesOnly
      [.port, .results, .holds, .exchanges, .place, .station, .answers, .requests, .transmitter, .beacons, .wanted,
       .listen, .heldLink, .badFrames, .sendFailed, .answerDropped, .clash, .peers, .cycles, .statements, .latched,
       .saturation] s u ∧
    (u.tp.state = .idle ∧ u.tp.response = none ∧ u.tp.busy = 0) ∧ u.lc = Link.reset s.now ∧
    u.su = { s.su with readPos := 0, reportLost := false } ∧ u.mu.latched = s.mu.latched &&& 0x1E00#13 ∧
    (∀ st, s.tp.settings = some st →
      u.ht = { s.ht with holds := s.ht.holds.map fun h =>
        if h.state = .held then { h with deadline := some (s.now + st.holdLifetime * 1000000) } else h } ∧
      u.cc = { s.cc with
        sealTimer :=
          if s.cc.phase = .sweeping ∨ s.cc.phase = .sealing then some (s.now + st.sealWindow * 1000000) else none } ∧
      u.pt = (s.pt.map fun e =>
        { e with presence := .unknown, lastHeard := none, lastState := none, lastCycle := none }.withExposure st
          (s.heldSum e.peer)) ∧
      (∀ e ∈ u.xt.exchanges, e.state ≠ .queued ∧ e.state ≠ .waiting ∧ e.resendWanted = false) ∧
      (withinRoom s →
        let w : State :=
          { s with
            seq := s.seq + asideResults s.xt.exchanges
            xt := { s.xt with
              exchanges := asideExchanges s.seq s.xt.exchanges
              ended := keepLast 64 (s.xt.ended ++ asideEnded s.xt.exchanges) }
            lc := Link.reset s.now }
        u.xt = w.fillResults.xt ∧ u.tp.results = w.fillResults.tp.results ∧ u.seq = w.seq) ∧
      (let exposed (e : PeerEntry) : Int :=
         max e.openF.l.val 0 + (match e.sealF with | some f => max f.l.val 0 | none => 0) + (s.heldSum e.peer : Int)
       u.mu.saturation = true ↔ s.mu.saturation = true ∨ ∃ e ∈ s.pt, overflows (exposed e) = true)) ∧
    (∃ entered, u.tp.results = s.tp.results ++ entered) ∧
    (s.tp.settings = none → u.mu.saturation = s.mu.saturation ∧ u.tp.results = s.tp.results ∧ u.xt = s.xt ∧ u.ht = s.ht ∧ u.cc = s.cc)) ∧
  ∀ t : Moment,
    let l := Link.reset t
    l.station = .offline ∧ l.answerQ = [] ∧ l.requestQ = [] ∧ l.tx = .idle ∧ l.lastRequest = none ∧
      l.beaconAt = none ∧ l.heldBeacon = false ∧ (∀ m ∈ l.wanted, m.tally = false ∧ m.check = false) ∧
      l.listenEnd = none ∧ l.heldLink = none ∧ l.badFrames = [] ∧ l.sendFailed = none ∧ l.answerDropped = none ∧
      l.clash = false

/-! ### Frames of the shared operations -/

/-- What the operations that the other statements name leave unchanged; the look-ups, which give the first record of
their key, the single changes, which change the records of their key alone, and what a saturation report sets (R6). The
ended list keeps its newest 64 entries (R101). -/
def Obligations.SharedOperationsFrames : Prop :=
  (∀ l : List EndedEntry,
    (l.length ≤ 64 → keepLast 64 l = l) ∧
      ∀ old new, l = old ++ new → new.length = 64 → keepLast 64 l = new) ∧
  ∀ s : State,
    (∀ n,
      (s.findCard n = (s.ct.cards.find? fun c => c.serial == n) ∧
        s.findHold n = (s.ht.holds.find? fun h => h.id == n) ∧
        s.findTrail n = (s.tr.entries.find? fun e => e.number == n) ∧
        s.findExchange n = (s.xt.exchanges.find? fun e => e.tag == n)) ∧
      (∀ e, (s.pt.find? fun x => x.peer == n) = some e → s.peer n = e) ∧
      (∀ x, (s.ht.peerHeld.find? fun y => y.peer == n) = some x → s.heldSum n = x.sum) ∧
      (∀ m, (s.lc.wanted.find? fun x => x.peer == n) = some m → s.wantedMarks n = m) ∧
      (∀ f, s.modPeer n f = { s with pt := s.pt.map fun e => if e.peer == n then f e else e }) ∧
      (∀ f, s.modExchange n f =
        { s with xt := { s.xt with exchanges := s.xt.exchanges.map fun e => if e.tag == n then f e else e } }) ∧
      ∀ f, s.modWanted n f =
        { s with lc := { s.lc with wanted := s.lc.wanted.map fun m => if m.peer == n then f m else m } }) ∧
    (∀ t, s.atMoment t = { s with now := max s.now t }) ∧
    (∀ b, s.raiseSat b = { s with mu := { s.mu with saturation := s.mu.saturation || b } }) ∧
    let fill : List Part := [.requests, .draws, .beacons, .wanted, .exchanges]
    let close : List Part := [.peers, .saturation, .money, .cursor, .cycles, .latched]
    let seals : List Part := .statements :: (close ++ fill)
    ChangesOnly [.latched, .attn, .lde, .ltx] s (finish s) ∧
    (ChangesOnly fill s s.fillRequests ∧
      (s.fillRequests.xt.ended, s.fillRequests.xt.nextTag) = (s.xt.ended, s.xt.nextTag) ∧
      (s.fillRequests.xt.exchanges.map fun e =>
        (e.tag, e.params, e.internal, e.home, e.serial, e.token, e.replyDeadline, e.result)) =
        s.xt.exchanges.map fun e =>
          (e.tag, e.params, e.internal, e.home, e.serial, e.token, e.replyDeadline, e.result)) ∧
    (ChangesOnly [.results, .exchanges, .heldLink] s s.fillResults ∧
      (s.fillResults.xt.ended, s.fillResults.xt.nextTag) = (s.xt.ended, s.xt.nextTag)) ∧
    (∀ f, ChangesOnly [.answers, .answerDropped] s (s.offerAnswer f)) ∧
    (∀ o, ChangesOnly [.results, .heldLink, .place] s (s.linkResult o)) ∧
    (∀ p, ChangesOnly fill s (s.askOwed p) ∧ ChangesOnly fill s (s.wantResends p) ∧
      ChangesOnly [.peers, .latched] s (s.protocolFault p)) ∧
    ChangesOnly fill s s.askOwedAll ∧ (∀ f, ChangesOnly fill s (s.reportDiscard f)) ∧
    (∀ h, ChangesOnly (.peers :: fill) s (s.hearPeer h)) ∧ (∀ st x, ChangesOnly seals s (s.catchUp st x)) ∧
    (∀ n, ChangesOnly [.cards, .money, .saturation] s (s.lapseIfDue n) ∧
      ((s.lapseIfDue n).ct.openOwn.s, (s.lapseIfDue n).ct.openOwn.u, (s.lapseIfDue n).ct.openOwn.x) =
        (s.ct.openOwn.s, s.ct.openOwn.u, s.ct.openOwn.x)) ∧
    (∀ st p x, ChangesOnly [.peers, .saturation] s (s.bookLiability st p x)) ∧
    (∀ e, ChangesOnly [.exchanges, .place] s (s.setAside e)) ∧
    (∀ e ending hold trail o,
      ChangesOnly [.exchanges, .place, .results, .heldLink, .requests, .draws, .beacons, .wanted] s
        (s.endByAnswer e ending hold trail o)) ∧
    (∀ source tag i, ChangesOnly fill s (s.orphanGrant source tag i)) ∧
    (∀ st forced, ChangesOnly seals s (s.makeSeal st forced) ∧ ChangesOnly seals s (s.completeDeferred st) ∧
      ChangesOnly seals s (s.sweepEnd st)) ∧
    ChangesOnly
      [.station, .answers, .requests, .transmitter, .beacons, .wanted, .listen, .badFrames, .exchanges, .place, .peers,
       .results, .heldLink] s s.drainTest

/-! ### The form of a frame -/

/-- Every frame the part can send is read back: its bytes are a good frame of at most 52 bytes, its header reads as the
one written, and its body as the fields it was built from (R76, R78, R86, R87, R96 to R98). On the line it is the 16
bits of the preamble, the start byte 10110011 and its bytes, each most significant bit first, with a transition at the
middle of every bit cell; a receiver that has seen at least 8 bits of the preamble reads the same bytes (R76; the
sixteen bits it looks for are log 21). The bytes are the header of R96, its fields in their places with the sender's
cycle and state, the body of R98 with its fields in their order, and the CRC, high byte first: the remainder of R78, the
register preset to all ones, every bit taken most significant first by the generator x^16 + x^15 + x^2 + 1. -/
def Obligations.FramesReadBack : Prop :=
  (∀ bytes : List Byte,
    crc16 bytes =
      (bytes.flatMap fun b => (List.range 8).map b.getMsbD).foldl
        (fun (r : BitVec 16) bit => if r.getMsbD 0 ≠ bit then (r <<< 1) ^^^ 0x8005#16 else r <<< 1) 0xFFFF#16) ∧
  (∀ (own cycle dest tag : Nat) (st : SenderState) (b : Body),
    let amount (n : Nat) : List Byte := spellSigned 0 n
    let body : Byte × List Byte := match b with
      | .beacon => (0x01, [])
      | .ask home n a l => (0x10, spellRef home n ++ amount a ++ amount l)
      | .grant i g r v y e =>
        (0x11, spellNum 2 i ++ amount g ++ amount r ++ amount v ++ amount y ++ spellDigits 3 (e.getD 0))
      | .take i n a => (0x12, spellNum 2 i ++ spellDigits 4 n ++ amount a)
      | .taken n c r k y => (0x13, spellDigits 4 n ++ amount c ++ amount r ++ spellDigits 3 k ++ amount y)
      | .free i n => (0x14, spellNum 2 i ++ spellDigits 4 n)
      | .freed r y v => (0x15, amount r ++ amount y ++ amount v)
      | .credit n k a => (0x16, spellDigits 4 n ++ spellDigits 4 k ++ amount a)
      | .credited n a m k y => (0x17, spellDigits 4 n ++ amount a ++ amount m ++ spellDigits 3 k ++ amount y)
      | .refuse k r v => (0x1F, spellNum 1 k ++ spellNum 1 r.code ++ amount v)
      | .tally k r l =>
        (0x20, spellDigits 3 k ++ spellSigned 0 r.val ++ spellSigned 0 l.val ++
          [match r.mark, l.mark with
            | false, false => 0x00#8 | true, false => 0x01#8 | false, true => 0x02#8 | true, true => 0x03#8])
      | .check => (0x21, [])
    let state : Byte := match st with | .active => 0x01 | .draining => 0x02
    b.kind = body.1.toNat ∧ b.bytes = body.2 ∧
      frameBytes own cycle st ⟨dest, tag, b⟩ =
        withCrc (spellNum 1 dest ++ spellNum 1 own ++ [body.1] ++ spellDigits 3 cycle ++ [state] ++ spellNum 2 tag ++
          spellNum 1 body.2.length ++ body.2)) ∧
  (∀ x : StationState, x.sender = .draining ↔ x = .draining) ∧
  (∀ bytes : List Byte,
    (lineBits bytes).length = 24 + 8 * bytes.length ∧
    (lineBits bytes).take 24 =
      [true, false, true, false, true, false, true, false, true, false, true, false, true, false, true, false,
       true, false, true, true, false, false, true, true] ∧
    (∀ before b after i, bytes = before ++ b :: after → i < 8 →
      (lineBits bytes)[24 + 8 * before.length + i]? = some (b.getMsbD i)) ∧
    (∀ b, cellLevels b = [!b, b]) ∧
    ∀ missed, missed ≤ 8 → classifyBits ((lineBits bytes).drop missed) = classify bytes) ∧
  ∀ (own cycle dest tag : Nat) (st : SenderState) (b : Body), 1 ≤ own → own ≤ 63 → 1 ≤ cycle → cycle ≤ 999999 →
    dest ≤ 63 → tag ≤ 65535 → b.fitsFields →
    let bytes := frameBytes own cycle st ⟨dest, tag, b⟩
    bytes.length ≤ 52 ∧ bytes.length = 12 + b.bytes.length ∧
      ∃ f, classify bytes = .good f ∧ f.kind.toNat = b.kind ∧ readHeader f.header = some ⟨dest, own, cycle, st, tag⟩ ∧
        (parseBody f.kind.toNat f.body).bind RawBody.read = some b

/-! ### Headline statements -/

/-- Every step keeps the float: while no lifetime own-card total is marked, it is loads less captures plus refunds less
lapses less cash-outs (R28). -/
def Obligations.FloatStaysBalanced : Prop :=
  ∀ s s' : State, floatBalanced s → step s = .next s' → floatBalanced s'

/-- Every step keeps the sealing set whole: none of it in STEADY, all of it in every other phase, below the open cycle;
the cursor in SWEEPING alone; a pending target above the open cycle (R34, R124, R137 to R139, R143). -/
def Obligations.SealingSetStaysWhole : Prop :=
  ∀ s s' : State, sealingWhole s → step s = .next s' → sealingWhole s'

/-- Every step keeps the queues, lists and tables within the room the spec gives them (R17, R63, R83, R84, R101, R155,
R159, R179, R182, R184). -/
def Obligations.RoomIsKept : Prop :=
  ∀ s s' : State, withinRoom s → step s = .next s' → withinRoom s'

/-- Every step keeps the Card Table and the Hold Table in agreement: each card's held and open holds are those of its
OPEN holds, held never exceeds balance, ids and serials are all different, the end list and the counters are those of
the records (R16, R17, R21, R39 to R42). -/
def Obligations.TablesStayInAgreement : Prop :=
  ∀ s s' : State, tablesAgree s → step s = .next s' → tablesAgree s'
end

