-- ==== Sys2Proof/Laws/Aside.lean ====
section
/-! SUPPORT. What setting every exchange aside does (R110, R118): one equation, by the kinds of the exchanges. -/

namespace Sys2Proof.Machine

/-! ### One exchange among others of different tags -/

/-- Outside the tag in hand nothing is touched. -/
theorem map_otherTags {l : List Exchange} {e : Exchange} (f : Exchange → Exchange) (h : ∀ x ∈ l, x.tag ≠ e.tag) :
    (l.map fun x => if x.tag == e.tag then f x else x) = l := by
  conv_rhs => rw [← List.map_id l]
  exact List.map_congr_left fun x hx => if_neg (by simpa using h x hx)

theorem filter_otherTags {l : List Exchange} {e : Exchange} (h : ∀ x ∈ l, x.tag ≠ e.tag) :
    (l.filter fun x => x.tag != e.tag) = l := List.filter_eq_self.mpr fun x hx => by simpa using h x hx

theorem otherTags {pre es : List Exchange} {e : Exchange} (h : ((pre ++ e :: es).map Exchange.tag).Nodup) :
    (∀ x ∈ pre, x.tag ≠ e.tag) ∧ ∀ x ∈ es, x.tag ≠ e.tag := by
  simp only [List.map_append, List.map_cons, List.nodup_append, List.nodup_cons, List.mem_map, List.mem_cons] at h
  exact ⟨fun x hx => h.2.2 _ ⟨x, hx, rfl⟩ _ (.inl rfl), fun x hx ex => h.2.1.1 ⟨x, hx, ex⟩⟩

/-- A change to the exchange of a tag, the tags being all different. -/
theorem State.modExchange_at {s : State} {pre es : List Exchange} {e : Exchange} (f : Exchange → Exchange)
    (h : s.xt.exchanges = pre ++ e :: es) (tags : ((pre ++ e :: es).map Exchange.tag).Nodup) :
    s.modExchange e.tag f = { s with xt := { s.xt with exchanges := pre ++ f e :: es } } := by
  obtain ⟨hp, he⟩ := otherTags tags
  simp only [State.modExchange, h, List.map_append, List.map_cons, map_otherTags f hp, map_otherTags f he, beq_self_eq_true,
    if_true]

/-- The exchange of a tag leaves, the tags being all different. -/
theorem filter_at {pre es : List Exchange} {e : Exchange} (tags : ((pre ++ e :: es).map Exchange.tag).Nodup) :
    ((pre ++ e :: es).filter fun x => x.tag != e.tag) = pre ++ es := by
  obtain ⟨hp, he⟩ := otherTags tags
  rw [List.filter_append, List.filter_cons_of_neg (by simp), filter_otherTags hp, filter_otherTags he]

theorem keepLast_eq_self {α : Type} {k : Nat} {l : List α} (h : l.length ≤ k) : keepLast k l = l := by
  simp [keepLast, Nat.sub_eq_zero_of_le h]

theorem keepLast_length_le {α : Type} (k : Nat) (l : List α) : (keepLast k l).length ≤ k := by
  simp [keepLast]; omega

theorem keepLast_keepLast_append {α : Type} (k : Nat) (l m : List α) :
    keepLast k (keepLast k l ++ m) = keepLast k (l ++ m) := by
  simp only [keepLast, List.length_append, List.length_drop, List.drop_append, List.drop_drop]
  congr 1 <;> congr 1 <;> omega

/-- What setting one exchange under way aside does (R108, R110): its record, the ended list and the places. -/
theorem State.setAside_eq {s : State} {pre es : List Exchange} {e : Exchange} (h : s.xt.exchanges = pre ++ e :: es)
    (tags : ((pre ++ e :: es).map Exchange.tag).Nodup) (way : e.underWay = true)
    (room : s.xt.ended.length ≤ Config.endedMax) :
    s.setAside e =
      { s with
        seq := s.seq + asideResults [e]
        xt := { s.xt with
          exchanges := pre ++ asideExchanges s.seq [e] ++ es
          ended := keepLast Config.endedMax (s.xt.ended ++ asideEnded [e]) } } := by
  have w : (e.state == .queued || e.state == .waiting) = true := way
  have k := keepLast_eq_self room
  cases hp : e.params <;> cases hi : e.internal <;>
    simp [State.setAside, State.finishExchange, State.modExchange_at _ h tags, State.joinEnded, asideResults, asideEnded,
      asideExchanges, becomesUnsure, endsUnanswered, Exchange.endedEntry, Exchange.resultRec, h, hp, hi, w, k,
      filter_at tags, ExParams.holdId?, ExParams.trail?]

/-! ### All of them -/

theorem asideExchanges_cons (n : Nat) (e : Exchange) (es : List Exchange) :
    asideExchanges n (e :: es) = asideExchanges n [e] ++ asideExchanges (n + asideResults [e]) es := by
  cases hi : e.internal <;> cases hu : becomesUnsure e <;> cases he : endsUnanswered e <;>
    simp [asideExchanges, asideResults, hi, hu, he]

theorem asideEnded_cons (e : Exchange) (es : List Exchange) : asideEnded (e :: es) = asideEnded [e] ++ asideEnded es := by
  cases he : endsUnanswered e <;> simp [asideEnded, he]

theorem asideResults_cons (e : Exchange) (es : List Exchange) :
    asideResults (e :: es) = asideResults [e] + asideResults es := by
  simp only [asideResults, List.countP_cons, List.countP_nil]; omega

/-- An exchange that is not under way is kept, and no resend of it is wanted. -/
theorem aside_of_not_underWay {e : Exchange} (way : e.underWay = false) (n : Nat) :
    asideExchanges n [e] = [{ e with resendWanted := false }] ∧ asideEnded [e] = [] ∧ asideResults [e] = 0 := by
  have w : (e.state == .queued || e.state == .waiting) = false := way
  simp [asideExchanges, asideEnded, asideResults, becomesUnsure, endsUnanswered, w]

/-- One exchange set aside keeps its tag or leaves, and wants no resend. -/
theorem asideExchanges_one (n : Nat) (e : Exchange) :
    asideExchanges n [e] = [] ∨ ∃ x, asideExchanges n [e] = [x] ∧ x.tag = e.tag ∧ x.resendWanted = false := by
  cases hi : e.internal <;> cases hu : becomesUnsure e <;> cases he : endsUnanswered e <;>
    simp [asideExchanges, hi, hu, he]

/-- The table, the ended list and the count of places after the exchanges `es`, the last of the table, have been set aside:
those before them stand. -/
theorem State.setAside_foldl (es pre : List Exchange) (s : State) (h : s.xt.exchanges = pre ++ es)
    (tags : ((pre ++ es).map Exchange.tag).Nodup) (room : s.xt.ended.length ≤ Config.endedMax) :
    let t := (es.filter Exchange.underWay).foldl State.setAside s
    (t.xt.exchanges.map fun e => { e with resendWanted := false }) =
        (pre.map fun e => { e with resendWanted := false }) ++ asideExchanges s.seq es ∧
      t = { s with
        seq := s.seq + asideResults es
        xt := { s.xt with
          exchanges := t.xt.exchanges, ended := keepLast Config.endedMax (s.xt.ended ++ asideEnded es) } } := by
  induction es generalizing pre s with
  | nil =>
    refine ⟨by simp [h, asideExchanges], ?_⟩
    simp [asideResults, asideEnded, keepLast_eq_self room]
  | cons e es ih =>
    rw [asideExchanges_cons _ e es, asideEnded_cons e es, asideResults_cons e es]
    cases way : e.underWay
    · obtain ⟨hx, hd, hr⟩ := aside_of_not_underWay way s.seq
      rw [List.filter_cons_of_neg (by simp [way])]
      have := ih (pre ++ [e]) s (by simpa using h) (by simpa using tags) room
      rw [hx, hd, hr]; simpa using this
    · rw [List.filter_cons_of_pos way, List.foldl_cons, State.setAside_eq h tags way room]
      have hs : ((pre ++ asideExchanges s.seq [e] ++ es).map Exchange.tag).Nodup := by
        rcases asideExchanges_one s.seq e with hx | ⟨x, hx, ht, _⟩
        · rw [hx]
          exact List.Sublist.nodup (List.Sublist.map _ (by simp)) tags
        · rw [hx]; simpa [ht] using tags
      obtain ⟨h1, h2⟩ := ih (pre ++ asideExchanges s.seq [e]) { s with
          seq := s.seq + asideResults [e]
          xt := { s.xt with
            exchanges := pre ++ asideExchanges s.seq [e] ++ es
            ended := keepLast Config.endedMax (s.xt.ended ++ asideEnded [e]) } } rfl hs (keepLast_length_le _ _)
      refine ⟨?_, ?_⟩
      · rw [h1]
        rcases asideExchanges_one s.seq e with hx | ⟨x, hx, _, hw⟩
        · simp [hx]
        · have : ({ x with resendWanted := false } : Exchange) = x := by rw [← hw]
          simp [hx, this]
      · rw [h2]
        simp only [keepLast_keepLast_append, List.append_assoc, Nat.add_assoc]

/-- Setting every exchange aside, by their kinds (R110, R118). -/
theorem State.setAsideAll_eq {s : State} (tags : (s.xt.exchanges.map Exchange.tag).Nodup)
    (room : s.xt.ended.length ≤ Config.endedMax) :
    s.setAsideAll =
      { s with
        seq := s.seq + asideResults s.xt.exchanges
        xt := { s.xt with
          exchanges := asideExchanges s.seq s.xt.exchanges
          ended := keepLast Config.endedMax (s.xt.ended ++ asideEnded s.xt.exchanges) } } := by
  obtain ⟨h1, h2⟩ := State.setAside_foldl s.xt.exchanges [] s rfl tags room
  rw [List.map_nil, List.nil_append] at h1
  simp only [State.setAsideAll, h1]
  rw [h2]

end Sys2Proof.Machine
end

