-- ==== Sys2Proof/Laws/State.lean ====
section
/-! SUPPORT. One lemma per field per update of State, each true by `rfl`, so that no proof unfolds a record
update. -/

namespace Sys2Proof.Machine

variable (s : State)

/-! ### State.atMoment -/

@[simp] theorem State.atMoment_draws (t : Moment) : (s.atMoment t).draws = s.draws := rfl
@[simp] theorem State.atMoment_seq (t : Moment) : (s.atMoment t).seq = s.seq := rfl
@[simp] theorem State.atMoment_pending (t : Moment) : (s.atMoment t).pending = s.pending := rfl
@[simp] theorem State.atMoment_power (t : Moment) : (s.atMoment t).power = s.power := rfl
@[simp] theorem State.atMoment_retention (t : Moment) : (s.atMoment t).retention = s.retention := rfl
@[simp] theorem State.atMoment_pins (t : Moment) : (s.atMoment t).pins = s.pins := rfl
@[simp] theorem State.atMoment_tp (t : Moment) : (s.atMoment t).tp = s.tp := rfl
@[simp] theorem State.atMoment_ct (t : Moment) : (s.atMoment t).ct = s.ct := rfl
@[simp] theorem State.atMoment_ht (t : Moment) : (s.atMoment t).ht = s.ht := rfl
@[simp] theorem State.atMoment_tr (t : Moment) : (s.atMoment t).tr = s.tr := rfl
@[simp] theorem State.atMoment_xt (t : Moment) : (s.atMoment t).xt = s.xt := rfl
@[simp] theorem State.atMoment_lc (t : Moment) : (s.atMoment t).lc = s.lc := rfl
@[simp] theorem State.atMoment_pt (t : Moment) : (s.atMoment t).pt = s.pt := rfl
@[simp] theorem State.atMoment_cc (t : Moment) : (s.atMoment t).cc = s.cc := rfl
@[simp] theorem State.atMoment_su (t : Moment) : (s.atMoment t).su = s.su := rfl
@[simp] theorem State.atMoment_mu (t : Moment) : (s.atMoment t).mu = s.mu := rfl
@[simp] theorem State.atMoment_now (t : Moment) : (s.atMoment t).now = max s.now t := rfl

/-! ### State.raiseSat -/

@[simp] theorem State.raiseSat_now (b : Bool) : (s.raiseSat b).now = s.now := rfl
@[simp] theorem State.raiseSat_draws (b : Bool) : (s.raiseSat b).draws = s.draws := rfl
@[simp] theorem State.raiseSat_seq (b : Bool) : (s.raiseSat b).seq = s.seq := rfl
@[simp] theorem State.raiseSat_pending (b : Bool) : (s.raiseSat b).pending = s.pending := rfl
@[simp] theorem State.raiseSat_power (b : Bool) : (s.raiseSat b).power = s.power := rfl
@[simp] theorem State.raiseSat_retention (b : Bool) : (s.raiseSat b).retention = s.retention := rfl
@[simp] theorem State.raiseSat_pins (b : Bool) : (s.raiseSat b).pins = s.pins := rfl
@[simp] theorem State.raiseSat_tp (b : Bool) : (s.raiseSat b).tp = s.tp := rfl
@[simp] theorem State.raiseSat_ct (b : Bool) : (s.raiseSat b).ct = s.ct := rfl
@[simp] theorem State.raiseSat_ht (b : Bool) : (s.raiseSat b).ht = s.ht := rfl
@[simp] theorem State.raiseSat_tr (b : Bool) : (s.raiseSat b).tr = s.tr := rfl
@[simp] theorem State.raiseSat_xt (b : Bool) : (s.raiseSat b).xt = s.xt := rfl
@[simp] theorem State.raiseSat_lc (b : Bool) : (s.raiseSat b).lc = s.lc := rfl
@[simp] theorem State.raiseSat_pt (b : Bool) : (s.raiseSat b).pt = s.pt := rfl
@[simp] theorem State.raiseSat_cc (b : Bool) : (s.raiseSat b).cc = s.cc := rfl
@[simp] theorem State.raiseSat_su (b : Bool) : (s.raiseSat b).su = s.su := rfl
@[simp] theorem State.raiseSat_mu (b : Bool) : (s.raiseSat b).mu =
    { s.mu with saturation := s.mu.saturation || b } := rfl

/-! ### State.modCard -/

@[simp] theorem State.modCard_now (n : Nat) (f : Card → Card) : (s.modCard n f).now = s.now := rfl
@[simp] theorem State.modCard_draws (n : Nat) (f : Card → Card) : (s.modCard n f).draws = s.draws := rfl
@[simp] theorem State.modCard_seq (n : Nat) (f : Card → Card) : (s.modCard n f).seq = s.seq := rfl
@[simp] theorem State.modCard_pending (n : Nat) (f : Card → Card) : (s.modCard n f).pending = s.pending := rfl
@[simp] theorem State.modCard_power (n : Nat) (f : Card → Card) : (s.modCard n f).power = s.power := rfl
@[simp] theorem State.modCard_retention (n : Nat) (f : Card → Card) : (s.modCard n f).retention = s.retention := rfl
@[simp] theorem State.modCard_pins (n : Nat) (f : Card → Card) : (s.modCard n f).pins = s.pins := rfl
@[simp] theorem State.modCard_tp (n : Nat) (f : Card → Card) : (s.modCard n f).tp = s.tp := rfl
@[simp] theorem State.modCard_ht (n : Nat) (f : Card → Card) : (s.modCard n f).ht = s.ht := rfl
@[simp] theorem State.modCard_tr (n : Nat) (f : Card → Card) : (s.modCard n f).tr = s.tr := rfl
@[simp] theorem State.modCard_xt (n : Nat) (f : Card → Card) : (s.modCard n f).xt = s.xt := rfl
@[simp] theorem State.modCard_lc (n : Nat) (f : Card → Card) : (s.modCard n f).lc = s.lc := rfl
@[simp] theorem State.modCard_pt (n : Nat) (f : Card → Card) : (s.modCard n f).pt = s.pt := rfl
@[simp] theorem State.modCard_cc (n : Nat) (f : Card → Card) : (s.modCard n f).cc = s.cc := rfl
@[simp] theorem State.modCard_su (n : Nat) (f : Card → Card) : (s.modCard n f).su = s.su := rfl
@[simp] theorem State.modCard_mu (n : Nat) (f : Card → Card) : (s.modCard n f).mu = s.mu := rfl
@[simp] theorem State.modCard_ct_cards (n : Nat) (f : Card → Card) : (s.modCard n f).ct.cards =
    s.ct.cards.map fun c => if c.serial == n then f c else c := rfl
@[simp] theorem State.modCard_ct_float (n : Nat) (f : Card → Card) : (s.modCard n f).ct.float = s.ct.float := rfl
@[simp] theorem State.modCard_ct_life (n : Nat) (f : Card → Card) : (s.modCard n f).ct.life = s.ct.life := rfl
@[simp] theorem State.modCard_ct_openOwn (n : Nat) (f : Card → Card) : (s.modCard n f).ct.openOwn =
    s.ct.openOwn := rfl
@[simp] theorem State.modCard_ct_sealOwn (n : Nat) (f : Card → Card) : (s.modCard n f).ct.sealOwn =
    s.ct.sealOwn := rfl
@[simp] theorem State.modCard_ct_serialNext (n : Nat) (f : Card → Card) : (s.modCard n f).ct.serialNext =
    s.ct.serialNext := rfl
@[simp] theorem State.modCard_ct_cursor (n : Nat) (f : Card → Card) : (s.modCard n f).ct.cursor = s.ct.cursor := rfl

/-! ### State.modHold -/

@[simp] theorem State.modHold_now (i : Nat) (f : Hold → Hold) : (s.modHold i f).now = s.now := rfl
@[simp] theorem State.modHold_draws (i : Nat) (f : Hold → Hold) : (s.modHold i f).draws = s.draws := rfl
@[simp] theorem State.modHold_seq (i : Nat) (f : Hold → Hold) : (s.modHold i f).seq = s.seq := rfl
@[simp] theorem State.modHold_pending (i : Nat) (f : Hold → Hold) : (s.modHold i f).pending = s.pending := rfl
@[simp] theorem State.modHold_power (i : Nat) (f : Hold → Hold) : (s.modHold i f).power = s.power := rfl
@[simp] theorem State.modHold_retention (i : Nat) (f : Hold → Hold) : (s.modHold i f).retention = s.retention := rfl
@[simp] theorem State.modHold_pins (i : Nat) (f : Hold → Hold) : (s.modHold i f).pins = s.pins := rfl
@[simp] theorem State.modHold_tp (i : Nat) (f : Hold → Hold) : (s.modHold i f).tp = s.tp := rfl
@[simp] theorem State.modHold_ct (i : Nat) (f : Hold → Hold) : (s.modHold i f).ct = s.ct := rfl
@[simp] theorem State.modHold_tr (i : Nat) (f : Hold → Hold) : (s.modHold i f).tr = s.tr := rfl
@[simp] theorem State.modHold_xt (i : Nat) (f : Hold → Hold) : (s.modHold i f).xt = s.xt := rfl
@[simp] theorem State.modHold_lc (i : Nat) (f : Hold → Hold) : (s.modHold i f).lc = s.lc := rfl
@[simp] theorem State.modHold_pt (i : Nat) (f : Hold → Hold) : (s.modHold i f).pt = s.pt := rfl
@[simp] theorem State.modHold_cc (i : Nat) (f : Hold → Hold) : (s.modHold i f).cc = s.cc := rfl
@[simp] theorem State.modHold_su (i : Nat) (f : Hold → Hold) : (s.modHold i f).su = s.su := rfl
@[simp] theorem State.modHold_mu (i : Nat) (f : Hold → Hold) : (s.modHold i f).mu = s.mu := rfl
@[simp] theorem State.modHold_ht (i : Nat) (f : Hold → Hold) : (s.modHold i f).ht =
    { s.ht with holds := s.ht.holds.map fun h => if h.id == i then f h else h } := rfl

/-! ### State.modHeldSum -/

@[simp] theorem State.modHeldSum_now (p : Nat) (f : Nat → Nat) : (s.modHeldSum p f).now = s.now := rfl
@[simp] theorem State.modHeldSum_draws (p : Nat) (f : Nat → Nat) : (s.modHeldSum p f).draws = s.draws := rfl
@[simp] theorem State.modHeldSum_seq (p : Nat) (f : Nat → Nat) : (s.modHeldSum p f).seq = s.seq := rfl
@[simp] theorem State.modHeldSum_pending (p : Nat) (f : Nat → Nat) : (s.modHeldSum p f).pending = s.pending := rfl
@[simp] theorem State.modHeldSum_power (p : Nat) (f : Nat → Nat) : (s.modHeldSum p f).power = s.power := rfl
@[simp] theorem State.modHeldSum_retention (p : Nat) (f : Nat → Nat) : (s.modHeldSum p f).retention = s.retention := rfl
@[simp] theorem State.modHeldSum_pins (p : Nat) (f : Nat → Nat) : (s.modHeldSum p f).pins = s.pins := rfl
@[simp] theorem State.modHeldSum_tp (p : Nat) (f : Nat → Nat) : (s.modHeldSum p f).tp = s.tp := rfl
@[simp] theorem State.modHeldSum_ct (p : Nat) (f : Nat → Nat) : (s.modHeldSum p f).ct = s.ct := rfl
@[simp] theorem State.modHeldSum_tr (p : Nat) (f : Nat → Nat) : (s.modHeldSum p f).tr = s.tr := rfl
@[simp] theorem State.modHeldSum_xt (p : Nat) (f : Nat → Nat) : (s.modHeldSum p f).xt = s.xt := rfl
@[simp] theorem State.modHeldSum_lc (p : Nat) (f : Nat → Nat) : (s.modHeldSum p f).lc = s.lc := rfl
@[simp] theorem State.modHeldSum_pt (p : Nat) (f : Nat → Nat) : (s.modHeldSum p f).pt = s.pt := rfl
@[simp] theorem State.modHeldSum_cc (p : Nat) (f : Nat → Nat) : (s.modHeldSum p f).cc = s.cc := rfl
@[simp] theorem State.modHeldSum_su (p : Nat) (f : Nat → Nat) : (s.modHeldSum p f).su = s.su := rfl
@[simp] theorem State.modHeldSum_mu (p : Nat) (f : Nat → Nat) : (s.modHeldSum p f).mu = s.mu := rfl
@[simp] theorem State.modHeldSum_ht (p : Nat) (f : Nat → Nat) : (s.modHeldSum p f).ht =
    { s.ht with peerHeld := s.ht.peerHeld.map fun x => if x.peer == p then { x with sum := f x.sum } else x } := rfl

/-! ### State.modPeer -/

@[simp] theorem State.modPeer_now (p : Nat) (f : PeerEntry → PeerEntry) : (s.modPeer p f).now = s.now := rfl
@[simp] theorem State.modPeer_draws (p : Nat) (f : PeerEntry → PeerEntry) : (s.modPeer p f).draws = s.draws := rfl
@[simp] theorem State.modPeer_seq (p : Nat) (f : PeerEntry → PeerEntry) : (s.modPeer p f).seq = s.seq := rfl
@[simp] theorem State.modPeer_pending (p : Nat) (f : PeerEntry → PeerEntry) : (s.modPeer p f).pending = s.pending := rfl
@[simp] theorem State.modPeer_power (p : Nat) (f : PeerEntry → PeerEntry) : (s.modPeer p f).power = s.power := rfl
@[simp] theorem State.modPeer_retention (p : Nat) (f : PeerEntry → PeerEntry) : (s.modPeer p f).retention = s.retention := rfl
@[simp] theorem State.modPeer_pins (p : Nat) (f : PeerEntry → PeerEntry) : (s.modPeer p f).pins = s.pins := rfl
@[simp] theorem State.modPeer_tp (p : Nat) (f : PeerEntry → PeerEntry) : (s.modPeer p f).tp = s.tp := rfl
@[simp] theorem State.modPeer_ct (p : Nat) (f : PeerEntry → PeerEntry) : (s.modPeer p f).ct = s.ct := rfl
@[simp] theorem State.modPeer_ht (p : Nat) (f : PeerEntry → PeerEntry) : (s.modPeer p f).ht = s.ht := rfl
@[simp] theorem State.modPeer_tr (p : Nat) (f : PeerEntry → PeerEntry) : (s.modPeer p f).tr = s.tr := rfl
@[simp] theorem State.modPeer_xt (p : Nat) (f : PeerEntry → PeerEntry) : (s.modPeer p f).xt = s.xt := rfl
@[simp] theorem State.modPeer_lc (p : Nat) (f : PeerEntry → PeerEntry) : (s.modPeer p f).lc = s.lc := rfl
@[simp] theorem State.modPeer_cc (p : Nat) (f : PeerEntry → PeerEntry) : (s.modPeer p f).cc = s.cc := rfl
@[simp] theorem State.modPeer_su (p : Nat) (f : PeerEntry → PeerEntry) : (s.modPeer p f).su = s.su := rfl
@[simp] theorem State.modPeer_mu (p : Nat) (f : PeerEntry → PeerEntry) : (s.modPeer p f).mu = s.mu := rfl
@[simp] theorem State.modPeer_pt (p : Nat) (f : PeerEntry → PeerEntry) : (s.modPeer p f).pt =
    s.pt.map fun e => if e.peer == p then f e else e := rfl

/-! ### State.modPeers -/

@[simp] theorem State.modPeers_now (f : PeerEntry → PeerEntry) : (s.modPeers f).now = s.now := rfl
@[simp] theorem State.modPeers_draws (f : PeerEntry → PeerEntry) : (s.modPeers f).draws = s.draws := rfl
@[simp] theorem State.modPeers_seq (f : PeerEntry → PeerEntry) : (s.modPeers f).seq = s.seq := rfl
@[simp] theorem State.modPeers_pending (f : PeerEntry → PeerEntry) : (s.modPeers f).pending = s.pending := rfl
@[simp] theorem State.modPeers_power (f : PeerEntry → PeerEntry) : (s.modPeers f).power = s.power := rfl
@[simp] theorem State.modPeers_retention (f : PeerEntry → PeerEntry) : (s.modPeers f).retention = s.retention := rfl
@[simp] theorem State.modPeers_pins (f : PeerEntry → PeerEntry) : (s.modPeers f).pins = s.pins := rfl
@[simp] theorem State.modPeers_tp (f : PeerEntry → PeerEntry) : (s.modPeers f).tp = s.tp := rfl
@[simp] theorem State.modPeers_ct (f : PeerEntry → PeerEntry) : (s.modPeers f).ct = s.ct := rfl
@[simp] theorem State.modPeers_ht (f : PeerEntry → PeerEntry) : (s.modPeers f).ht = s.ht := rfl
@[simp] theorem State.modPeers_tr (f : PeerEntry → PeerEntry) : (s.modPeers f).tr = s.tr := rfl
@[simp] theorem State.modPeers_xt (f : PeerEntry → PeerEntry) : (s.modPeers f).xt = s.xt := rfl
@[simp] theorem State.modPeers_lc (f : PeerEntry → PeerEntry) : (s.modPeers f).lc = s.lc := rfl
@[simp] theorem State.modPeers_cc (f : PeerEntry → PeerEntry) : (s.modPeers f).cc = s.cc := rfl
@[simp] theorem State.modPeers_su (f : PeerEntry → PeerEntry) : (s.modPeers f).su = s.su := rfl
@[simp] theorem State.modPeers_mu (f : PeerEntry → PeerEntry) : (s.modPeers f).mu = s.mu := rfl
@[simp] theorem State.modPeers_pt (f : PeerEntry → PeerEntry) : (s.modPeers f).pt = s.pt.map f := rfl

/-! ### State.modExchange -/

@[simp] theorem State.modExchange_now (tag : Nat) (f : Exchange → Exchange) : (s.modExchange tag f).now = s.now := rfl
@[simp] theorem State.modExchange_draws (tag : Nat) (f : Exchange → Exchange) : (s.modExchange tag f).draws = s.draws := rfl
@[simp] theorem State.modExchange_seq (tag : Nat) (f : Exchange → Exchange) : (s.modExchange tag f).seq = s.seq := rfl
@[simp] theorem State.modExchange_pending (tag : Nat) (f : Exchange → Exchange) : (s.modExchange tag f).pending = s.pending := rfl
@[simp] theorem State.modExchange_power (tag : Nat) (f : Exchange → Exchange) : (s.modExchange tag f).power = s.power := rfl
@[simp] theorem State.modExchange_retention (tag : Nat) (f : Exchange → Exchange) : (s.modExchange tag f).retention = s.retention := rfl
@[simp] theorem State.modExchange_pins (tag : Nat) (f : Exchange → Exchange) : (s.modExchange tag f).pins = s.pins := rfl
@[simp] theorem State.modExchange_tp (tag : Nat) (f : Exchange → Exchange) : (s.modExchange tag f).tp = s.tp := rfl
@[simp] theorem State.modExchange_ct (tag : Nat) (f : Exchange → Exchange) : (s.modExchange tag f).ct = s.ct := rfl
@[simp] theorem State.modExchange_ht (tag : Nat) (f : Exchange → Exchange) : (s.modExchange tag f).ht = s.ht := rfl
@[simp] theorem State.modExchange_tr (tag : Nat) (f : Exchange → Exchange) : (s.modExchange tag f).tr = s.tr := rfl
@[simp] theorem State.modExchange_lc (tag : Nat) (f : Exchange → Exchange) : (s.modExchange tag f).lc = s.lc := rfl
@[simp] theorem State.modExchange_pt (tag : Nat) (f : Exchange → Exchange) : (s.modExchange tag f).pt = s.pt := rfl
@[simp] theorem State.modExchange_cc (tag : Nat) (f : Exchange → Exchange) : (s.modExchange tag f).cc = s.cc := rfl
@[simp] theorem State.modExchange_su (tag : Nat) (f : Exchange → Exchange) : (s.modExchange tag f).su = s.su := rfl
@[simp] theorem State.modExchange_mu (tag : Nat) (f : Exchange → Exchange) : (s.modExchange tag f).mu = s.mu := rfl
@[simp] theorem State.modExchange_xt (tag : Nat) (f : Exchange → Exchange) : (s.modExchange tag f).xt =
    { s.xt with exchanges := s.xt.exchanges.map fun e => if e.tag == tag then f e else e } := rfl

/-! ### State.modTrail -/

@[simp] theorem State.modTrail_now (n : Nat) (f : TrailEntry → TrailEntry) : (s.modTrail n f).now = s.now := rfl
@[simp] theorem State.modTrail_draws (n : Nat) (f : TrailEntry → TrailEntry) : (s.modTrail n f).draws = s.draws := rfl
@[simp] theorem State.modTrail_seq (n : Nat) (f : TrailEntry → TrailEntry) : (s.modTrail n f).seq = s.seq := rfl
@[simp] theorem State.modTrail_pending (n : Nat) (f : TrailEntry → TrailEntry) : (s.modTrail n f).pending = s.pending := rfl
@[simp] theorem State.modTrail_power (n : Nat) (f : TrailEntry → TrailEntry) : (s.modTrail n f).power = s.power := rfl
@[simp] theorem State.modTrail_retention (n : Nat) (f : TrailEntry → TrailEntry) : (s.modTrail n f).retention = s.retention := rfl
@[simp] theorem State.modTrail_pins (n : Nat) (f : TrailEntry → TrailEntry) : (s.modTrail n f).pins = s.pins := rfl
@[simp] theorem State.modTrail_tp (n : Nat) (f : TrailEntry → TrailEntry) : (s.modTrail n f).tp = s.tp := rfl
@[simp] theorem State.modTrail_ct (n : Nat) (f : TrailEntry → TrailEntry) : (s.modTrail n f).ct = s.ct := rfl
@[simp] theorem State.modTrail_ht (n : Nat) (f : TrailEntry → TrailEntry) : (s.modTrail n f).ht = s.ht := rfl
@[simp] theorem State.modTrail_xt (n : Nat) (f : TrailEntry → TrailEntry) : (s.modTrail n f).xt = s.xt := rfl
@[simp] theorem State.modTrail_lc (n : Nat) (f : TrailEntry → TrailEntry) : (s.modTrail n f).lc = s.lc := rfl
@[simp] theorem State.modTrail_pt (n : Nat) (f : TrailEntry → TrailEntry) : (s.modTrail n f).pt = s.pt := rfl
@[simp] theorem State.modTrail_cc (n : Nat) (f : TrailEntry → TrailEntry) : (s.modTrail n f).cc = s.cc := rfl
@[simp] theorem State.modTrail_su (n : Nat) (f : TrailEntry → TrailEntry) : (s.modTrail n f).su = s.su := rfl
@[simp] theorem State.modTrail_mu (n : Nat) (f : TrailEntry → TrailEntry) : (s.modTrail n f).mu = s.mu := rfl
@[simp] theorem State.modTrail_tr (n : Nat) (f : TrailEntry → TrailEntry) : (s.modTrail n f).tr =
    { s.tr with entries := s.tr.entries.map fun e => if e.number == n then f e else e } := rfl

/-! ### State.modWanted -/

@[simp] theorem State.modWanted_now (p : Nat) (f : WantedMarks → WantedMarks) : (s.modWanted p f).now = s.now := rfl
@[simp] theorem State.modWanted_draws (p : Nat) (f : WantedMarks → WantedMarks) : (s.modWanted p f).draws = s.draws := rfl
@[simp] theorem State.modWanted_seq (p : Nat) (f : WantedMarks → WantedMarks) : (s.modWanted p f).seq = s.seq := rfl
@[simp] theorem State.modWanted_pending (p : Nat) (f : WantedMarks → WantedMarks) : (s.modWanted p f).pending = s.pending := rfl
@[simp] theorem State.modWanted_power (p : Nat) (f : WantedMarks → WantedMarks) : (s.modWanted p f).power = s.power := rfl
@[simp] theorem State.modWanted_retention (p : Nat) (f : WantedMarks → WantedMarks) : (s.modWanted p f).retention = s.retention := rfl
@[simp] theorem State.modWanted_pins (p : Nat) (f : WantedMarks → WantedMarks) : (s.modWanted p f).pins = s.pins := rfl
@[simp] theorem State.modWanted_tp (p : Nat) (f : WantedMarks → WantedMarks) : (s.modWanted p f).tp = s.tp := rfl
@[simp] theorem State.modWanted_ct (p : Nat) (f : WantedMarks → WantedMarks) : (s.modWanted p f).ct = s.ct := rfl
@[simp] theorem State.modWanted_ht (p : Nat) (f : WantedMarks → WantedMarks) : (s.modWanted p f).ht = s.ht := rfl
@[simp] theorem State.modWanted_tr (p : Nat) (f : WantedMarks → WantedMarks) : (s.modWanted p f).tr = s.tr := rfl
@[simp] theorem State.modWanted_xt (p : Nat) (f : WantedMarks → WantedMarks) : (s.modWanted p f).xt = s.xt := rfl
@[simp] theorem State.modWanted_pt (p : Nat) (f : WantedMarks → WantedMarks) : (s.modWanted p f).pt = s.pt := rfl
@[simp] theorem State.modWanted_cc (p : Nat) (f : WantedMarks → WantedMarks) : (s.modWanted p f).cc = s.cc := rfl
@[simp] theorem State.modWanted_su (p : Nat) (f : WantedMarks → WantedMarks) : (s.modWanted p f).su = s.su := rfl
@[simp] theorem State.modWanted_mu (p : Nat) (f : WantedMarks → WantedMarks) : (s.modWanted p f).mu = s.mu := rfl
@[simp] theorem State.modWanted_lc (p : Nat) (f : WantedMarks → WantedMarks) : (s.modWanted p f).lc =
    { s.lc with wanted := s.lc.wanted.map fun m => if m.peer == p then f m else m } := rfl

/-! ### State.enterResult -/

@[simp] theorem State.enterResult_now (r : ResultRec) : (s.enterResult r).now = s.now := rfl
@[simp] theorem State.enterResult_draws (r : ResultRec) : (s.enterResult r).draws = s.draws := rfl
@[simp] theorem State.enterResult_seq (r : ResultRec) : (s.enterResult r).seq = s.seq := rfl
@[simp] theorem State.enterResult_pending (r : ResultRec) : (s.enterResult r).pending = s.pending := rfl
@[simp] theorem State.enterResult_power (r : ResultRec) : (s.enterResult r).power = s.power := rfl
@[simp] theorem State.enterResult_retention (r : ResultRec) : (s.enterResult r).retention = s.retention := rfl
@[simp] theorem State.enterResult_pins (r : ResultRec) : (s.enterResult r).pins = s.pins := rfl
@[simp] theorem State.enterResult_ct (r : ResultRec) : (s.enterResult r).ct = s.ct := rfl
@[simp] theorem State.enterResult_ht (r : ResultRec) : (s.enterResult r).ht = s.ht := rfl
@[simp] theorem State.enterResult_tr (r : ResultRec) : (s.enterResult r).tr = s.tr := rfl
@[simp] theorem State.enterResult_xt (r : ResultRec) : (s.enterResult r).xt = s.xt := rfl
@[simp] theorem State.enterResult_lc (r : ResultRec) : (s.enterResult r).lc = s.lc := rfl
@[simp] theorem State.enterResult_pt (r : ResultRec) : (s.enterResult r).pt = s.pt := rfl
@[simp] theorem State.enterResult_cc (r : ResultRec) : (s.enterResult r).cc = s.cc := rfl
@[simp] theorem State.enterResult_su (r : ResultRec) : (s.enterResult r).su = s.su := rfl
@[simp] theorem State.enterResult_mu (r : ResultRec) : (s.enterResult r).mu = s.mu := rfl
@[simp] theorem State.enterResult_tp (r : ResultRec) : (s.enterResult r).tp =
    { s.tp with results := s.tp.results ++ [r] } := rfl

/-! ### State.setCursor -/

@[simp] theorem State.setCursor_now (k : Option Nat) : (s.setCursor k).now = s.now := rfl
@[simp] theorem State.setCursor_draws (k : Option Nat) : (s.setCursor k).draws = s.draws := rfl
@[simp] theorem State.setCursor_seq (k : Option Nat) : (s.setCursor k).seq = s.seq := rfl
@[simp] theorem State.setCursor_pending (k : Option Nat) : (s.setCursor k).pending = s.pending := rfl
@[simp] theorem State.setCursor_power (k : Option Nat) : (s.setCursor k).power = s.power := rfl
@[simp] theorem State.setCursor_retention (k : Option Nat) : (s.setCursor k).retention = s.retention := rfl
@[simp] theorem State.setCursor_pins (k : Option Nat) : (s.setCursor k).pins = s.pins := rfl
@[simp] theorem State.setCursor_tp (k : Option Nat) : (s.setCursor k).tp = s.tp := rfl
@[simp] theorem State.setCursor_ht (k : Option Nat) : (s.setCursor k).ht = s.ht := rfl
@[simp] theorem State.setCursor_tr (k : Option Nat) : (s.setCursor k).tr = s.tr := rfl
@[simp] theorem State.setCursor_xt (k : Option Nat) : (s.setCursor k).xt = s.xt := rfl
@[simp] theorem State.setCursor_lc (k : Option Nat) : (s.setCursor k).lc = s.lc := rfl
@[simp] theorem State.setCursor_pt (k : Option Nat) : (s.setCursor k).pt = s.pt := rfl
@[simp] theorem State.setCursor_cc (k : Option Nat) : (s.setCursor k).cc = s.cc := rfl
@[simp] theorem State.setCursor_su (k : Option Nat) : (s.setCursor k).su = s.su := rfl
@[simp] theorem State.setCursor_mu (k : Option Nat) : (s.setCursor k).mu = s.mu := rfl
@[simp] theorem State.setCursor_ct (k : Option Nat) : (s.setCursor k).ct = { s.ct with cursor := k } := rfl

/-! ### State.keepTarget -/

@[simp] theorem State.keepTarget_now (t : Nat) : (s.keepTarget t).now = s.now := rfl
@[simp] theorem State.keepTarget_draws (t : Nat) : (s.keepTarget t).draws = s.draws := rfl
@[simp] theorem State.keepTarget_seq (t : Nat) : (s.keepTarget t).seq = s.seq := rfl
@[simp] theorem State.keepTarget_pending (t : Nat) : (s.keepTarget t).pending = s.pending := rfl
@[simp] theorem State.keepTarget_power (t : Nat) : (s.keepTarget t).power = s.power := rfl
@[simp] theorem State.keepTarget_retention (t : Nat) : (s.keepTarget t).retention = s.retention := rfl
@[simp] theorem State.keepTarget_pins (t : Nat) : (s.keepTarget t).pins = s.pins := rfl
@[simp] theorem State.keepTarget_tp (t : Nat) : (s.keepTarget t).tp = s.tp := rfl
@[simp] theorem State.keepTarget_ct (t : Nat) : (s.keepTarget t).ct = s.ct := rfl
@[simp] theorem State.keepTarget_ht (t : Nat) : (s.keepTarget t).ht = s.ht := rfl
@[simp] theorem State.keepTarget_tr (t : Nat) : (s.keepTarget t).tr = s.tr := rfl
@[simp] theorem State.keepTarget_xt (t : Nat) : (s.keepTarget t).xt = s.xt := rfl
@[simp] theorem State.keepTarget_lc (t : Nat) : (s.keepTarget t).lc = s.lc := rfl
@[simp] theorem State.keepTarget_pt (t : Nat) : (s.keepTarget t).pt = s.pt := rfl
@[simp] theorem State.keepTarget_su (t : Nat) : (s.keepTarget t).su = s.su := rfl
@[simp] theorem State.keepTarget_mu (t : Nat) : (s.keepTarget t).mu = s.mu := rfl
@[simp] theorem State.keepTarget_cc (t : Nat) : (s.keepTarget t).cc = s.cc.keepTarget t := rfl

/-! ### State.stopDriving -/

@[simp] theorem State.stopDriving_now (m : Moment) : (s.stopDriving m).now = s.now := rfl
@[simp] theorem State.stopDriving_draws (m : Moment) : (s.stopDriving m).draws = s.draws := rfl
@[simp] theorem State.stopDriving_seq (m : Moment) : (s.stopDriving m).seq = s.seq := rfl
@[simp] theorem State.stopDriving_pending (m : Moment) : (s.stopDriving m).pending = s.pending := rfl
@[simp] theorem State.stopDriving_power (m : Moment) : (s.stopDriving m).power = s.power := rfl
@[simp] theorem State.stopDriving_retention (m : Moment) : (s.stopDriving m).retention = s.retention := rfl
@[simp] theorem State.stopDriving_pins (m : Moment) : (s.stopDriving m).pins = s.pins := rfl
@[simp] theorem State.stopDriving_tp (m : Moment) : (s.stopDriving m).tp = s.tp := rfl
@[simp] theorem State.stopDriving_ct (m : Moment) : (s.stopDriving m).ct = s.ct := rfl
@[simp] theorem State.stopDriving_ht (m : Moment) : (s.stopDriving m).ht = s.ht := rfl
@[simp] theorem State.stopDriving_tr (m : Moment) : (s.stopDriving m).tr = s.tr := rfl
@[simp] theorem State.stopDriving_xt (m : Moment) : (s.stopDriving m).xt = s.xt := rfl
@[simp] theorem State.stopDriving_pt (m : Moment) : (s.stopDriving m).pt = s.pt := rfl
@[simp] theorem State.stopDriving_cc (m : Moment) : (s.stopDriving m).cc = s.cc := rfl
@[simp] theorem State.stopDriving_su (m : Moment) : (s.stopDriving m).su = s.su := rfl
@[simp] theorem State.stopDriving_mu (m : Moment) : (s.stopDriving m).mu = s.mu := rfl
@[simp] theorem State.stopDriving_lc (m : Moment) : (s.stopDriving m).lc =
    { s.lc with tx := .idle, line := ⟨false, max s.lc.line.since m⟩ } := rfl

/-! ### State.shiftOut -/

@[simp] theorem State.shiftOut_now (bs : List Byte) : (s.shiftOut bs).now = s.now := rfl
@[simp] theorem State.shiftOut_draws (bs : List Byte) : (s.shiftOut bs).draws = s.draws := rfl
@[simp] theorem State.shiftOut_seq (bs : List Byte) : (s.shiftOut bs).seq = s.seq := rfl
@[simp] theorem State.shiftOut_pending (bs : List Byte) : (s.shiftOut bs).pending = s.pending := rfl
@[simp] theorem State.shiftOut_power (bs : List Byte) : (s.shiftOut bs).power = s.power := rfl
@[simp] theorem State.shiftOut_retention (bs : List Byte) : (s.shiftOut bs).retention = s.retention := rfl
@[simp] theorem State.shiftOut_tp (bs : List Byte) : (s.shiftOut bs).tp = s.tp := rfl
@[simp] theorem State.shiftOut_ct (bs : List Byte) : (s.shiftOut bs).ct = s.ct := rfl
@[simp] theorem State.shiftOut_ht (bs : List Byte) : (s.shiftOut bs).ht = s.ht := rfl
@[simp] theorem State.shiftOut_tr (bs : List Byte) : (s.shiftOut bs).tr = s.tr := rfl
@[simp] theorem State.shiftOut_xt (bs : List Byte) : (s.shiftOut bs).xt = s.xt := rfl
@[simp] theorem State.shiftOut_lc (bs : List Byte) : (s.shiftOut bs).lc = s.lc := rfl
@[simp] theorem State.shiftOut_pt (bs : List Byte) : (s.shiftOut bs).pt = s.pt := rfl
@[simp] theorem State.shiftOut_cc (bs : List Byte) : (s.shiftOut bs).cc = s.cc := rfl
@[simp] theorem State.shiftOut_su (bs : List Byte) : (s.shiftOut bs).su = s.su := rfl
@[simp] theorem State.shiftOut_mu (bs : List Byte) : (s.shiftOut bs).mu = s.mu := rfl
@[simp] theorem State.shiftOut_pins (bs : List Byte) : (s.shiftOut bs).pins = { s.pins with miso := bs } := rfl

/-! ### State.respond -/

@[simp] theorem State.respond_now (token : Token) (r : Reply) : (s.respond token r).now = s.now := rfl
@[simp] theorem State.respond_draws (token : Token) (r : Reply) : (s.respond token r).draws = s.draws := rfl
@[simp] theorem State.respond_seq (token : Token) (r : Reply) : (s.respond token r).seq = s.seq := rfl
@[simp] theorem State.respond_pending (token : Token) (r : Reply) : (s.respond token r).pending = s.pending := rfl
@[simp] theorem State.respond_power (token : Token) (r : Reply) : (s.respond token r).power = s.power := rfl
@[simp] theorem State.respond_retention (token : Token) (r : Reply) : (s.respond token r).retention = s.retention := rfl
@[simp] theorem State.respond_pins (token : Token) (r : Reply) : (s.respond token r).pins = s.pins := rfl
@[simp] theorem State.respond_ct (token : Token) (r : Reply) : (s.respond token r).ct = s.ct := rfl
@[simp] theorem State.respond_ht (token : Token) (r : Reply) : (s.respond token r).ht = s.ht := rfl
@[simp] theorem State.respond_tr (token : Token) (r : Reply) : (s.respond token r).tr = s.tr := rfl
@[simp] theorem State.respond_xt (token : Token) (r : Reply) : (s.respond token r).xt = s.xt := rfl
@[simp] theorem State.respond_lc (token : Token) (r : Reply) : (s.respond token r).lc = s.lc := rfl
@[simp] theorem State.respond_pt (token : Token) (r : Reply) : (s.respond token r).pt = s.pt := rfl
@[simp] theorem State.respond_cc (token : Token) (r : Reply) : (s.respond token r).cc = s.cc := rfl
@[simp] theorem State.respond_su (token : Token) (r : Reply) : (s.respond token r).su = s.su := rfl
@[simp] theorem State.respond_mu (token : Token) (r : Reply) : (s.respond token r).mu = s.mu := rfl
@[simp] theorem State.respond_tp (token : Token) (r : Reply) : (s.respond token r).tp =
    { s.tp with state := .ready, response := some ⟨r.status, token, s.tp.busy, r.values⟩ } := rfl

/-! ### State.countBusy -/

@[simp] theorem State.countBusy_now : (s.countBusy).now = s.now := rfl
@[simp] theorem State.countBusy_draws : (s.countBusy).draws = s.draws := rfl
@[simp] theorem State.countBusy_seq : (s.countBusy).seq = s.seq := rfl
@[simp] theorem State.countBusy_pending : (s.countBusy).pending = s.pending := rfl
@[simp] theorem State.countBusy_power : (s.countBusy).power = s.power := rfl
@[simp] theorem State.countBusy_retention : (s.countBusy).retention = s.retention := rfl
@[simp] theorem State.countBusy_pins : (s.countBusy).pins = s.pins := rfl
@[simp] theorem State.countBusy_ct : (s.countBusy).ct = s.ct := rfl
@[simp] theorem State.countBusy_ht : (s.countBusy).ht = s.ht := rfl
@[simp] theorem State.countBusy_tr : (s.countBusy).tr = s.tr := rfl
@[simp] theorem State.countBusy_xt : (s.countBusy).xt = s.xt := rfl
@[simp] theorem State.countBusy_lc : (s.countBusy).lc = s.lc := rfl
@[simp] theorem State.countBusy_pt : (s.countBusy).pt = s.pt := rfl
@[simp] theorem State.countBusy_cc : (s.countBusy).cc = s.cc := rfl
@[simp] theorem State.countBusy_su : (s.countBusy).su = s.su := rfl
@[simp] theorem State.countBusy_mu : (s.countBusy).mu = s.mu := rfl
@[simp] theorem State.countBusy_tp : (s.countBusy).tp = { s.tp with busy := min 255 (s.tp.busy + 1) } := rfl

/-! ### State.countBad -/

@[simp] theorem State.countBad_now : (s.countBad).now = s.now := rfl
@[simp] theorem State.countBad_draws : (s.countBad).draws = s.draws := rfl
@[simp] theorem State.countBad_seq : (s.countBad).seq = s.seq := rfl
@[simp] theorem State.countBad_pending : (s.countBad).pending = s.pending := rfl
@[simp] theorem State.countBad_power : (s.countBad).power = s.power := rfl
@[simp] theorem State.countBad_retention : (s.countBad).retention = s.retention := rfl
@[simp] theorem State.countBad_pins : (s.countBad).pins = s.pins := rfl
@[simp] theorem State.countBad_tp : (s.countBad).tp = s.tp := rfl
@[simp] theorem State.countBad_ct : (s.countBad).ct = s.ct := rfl
@[simp] theorem State.countBad_ht : (s.countBad).ht = s.ht := rfl
@[simp] theorem State.countBad_tr : (s.countBad).tr = s.tr := rfl
@[simp] theorem State.countBad_xt : (s.countBad).xt = s.xt := rfl
@[simp] theorem State.countBad_pt : (s.countBad).pt = s.pt := rfl
@[simp] theorem State.countBad_cc : (s.countBad).cc = s.cc := rfl
@[simp] theorem State.countBad_su : (s.countBad).su = s.su := rfl
@[simp] theorem State.countBad_mu : (s.countBad).mu = s.mu := rfl
@[simp] theorem State.countBad_lc : (s.countBad).lc =
    { s.lc with badFrames := recentBad s.now s.lc.badFrames ++ [s.now] } := rfl

/-! ### State.raiseSendFailed -/

@[simp] theorem State.raiseSendFailed_now : (s.raiseSendFailed).now = s.now := rfl
@[simp] theorem State.raiseSendFailed_draws : (s.raiseSendFailed).draws = s.draws := rfl
@[simp] theorem State.raiseSendFailed_seq : (s.raiseSendFailed).seq = s.seq := rfl
@[simp] theorem State.raiseSendFailed_pending : (s.raiseSendFailed).pending = s.pending := rfl
@[simp] theorem State.raiseSendFailed_power : (s.raiseSendFailed).power = s.power := rfl
@[simp] theorem State.raiseSendFailed_retention : (s.raiseSendFailed).retention = s.retention := rfl
@[simp] theorem State.raiseSendFailed_pins : (s.raiseSendFailed).pins = s.pins := rfl
@[simp] theorem State.raiseSendFailed_tp : (s.raiseSendFailed).tp = s.tp := rfl
@[simp] theorem State.raiseSendFailed_ct : (s.raiseSendFailed).ct = s.ct := rfl
@[simp] theorem State.raiseSendFailed_ht : (s.raiseSendFailed).ht = s.ht := rfl
@[simp] theorem State.raiseSendFailed_tr : (s.raiseSendFailed).tr = s.tr := rfl
@[simp] theorem State.raiseSendFailed_xt : (s.raiseSendFailed).xt = s.xt := rfl
@[simp] theorem State.raiseSendFailed_pt : (s.raiseSendFailed).pt = s.pt := rfl
@[simp] theorem State.raiseSendFailed_cc : (s.raiseSendFailed).cc = s.cc := rfl
@[simp] theorem State.raiseSendFailed_su : (s.raiseSendFailed).su = s.su := rfl
@[simp] theorem State.raiseSendFailed_mu : (s.raiseSendFailed).mu = s.mu := rfl
@[simp] theorem State.raiseSendFailed_lc : (s.raiseSendFailed).lc =
    { s.lc with sendFailed := some (s.now + Config.noiseSpan) } := rfl

/-! ### State.forgetPresence -/

@[simp] theorem State.forgetPresence_now : (s.forgetPresence).now = s.now := rfl
@[simp] theorem State.forgetPresence_draws : (s.forgetPresence).draws = s.draws := rfl
@[simp] theorem State.forgetPresence_seq : (s.forgetPresence).seq = s.seq := rfl
@[simp] theorem State.forgetPresence_pending : (s.forgetPresence).pending = s.pending := rfl
@[simp] theorem State.forgetPresence_power : (s.forgetPresence).power = s.power := rfl
@[simp] theorem State.forgetPresence_retention : (s.forgetPresence).retention = s.retention := rfl
@[simp] theorem State.forgetPresence_pins : (s.forgetPresence).pins = s.pins := rfl
@[simp] theorem State.forgetPresence_tp : (s.forgetPresence).tp = s.tp := rfl
@[simp] theorem State.forgetPresence_ct : (s.forgetPresence).ct = s.ct := rfl
@[simp] theorem State.forgetPresence_ht : (s.forgetPresence).ht = s.ht := rfl
@[simp] theorem State.forgetPresence_tr : (s.forgetPresence).tr = s.tr := rfl
@[simp] theorem State.forgetPresence_xt : (s.forgetPresence).xt = s.xt := rfl
@[simp] theorem State.forgetPresence_lc : (s.forgetPresence).lc = s.lc := rfl
@[simp] theorem State.forgetPresence_cc : (s.forgetPresence).cc = s.cc := rfl
@[simp] theorem State.forgetPresence_su : (s.forgetPresence).su = s.su := rfl
@[simp] theorem State.forgetPresence_mu : (s.forgetPresence).mu = s.mu := rfl
@[simp] theorem State.forgetPresence_pt : (s.forgetPresence).pt =
    s.pt.map fun e => { e with presence := .unknown, lastHeard := none } := rfl

/-! ### State.lineBusy -/

@[simp] theorem State.lineBusy_now : (s.lineBusy).now = s.now := rfl
@[simp] theorem State.lineBusy_draws : (s.lineBusy).draws = s.draws := rfl
@[simp] theorem State.lineBusy_seq : (s.lineBusy).seq = s.seq := rfl
@[simp] theorem State.lineBusy_pending : (s.lineBusy).pending = s.pending := rfl
@[simp] theorem State.lineBusy_power : (s.lineBusy).power = s.power := rfl
@[simp] theorem State.lineBusy_retention : (s.lineBusy).retention = s.retention := rfl
@[simp] theorem State.lineBusy_pins : (s.lineBusy).pins = s.pins := rfl
@[simp] theorem State.lineBusy_tp : (s.lineBusy).tp = s.tp := rfl
@[simp] theorem State.lineBusy_ct : (s.lineBusy).ct = s.ct := rfl
@[simp] theorem State.lineBusy_ht : (s.lineBusy).ht = s.ht := rfl
@[simp] theorem State.lineBusy_tr : (s.lineBusy).tr = s.tr := rfl
@[simp] theorem State.lineBusy_xt : (s.lineBusy).xt = s.xt := rfl
@[simp] theorem State.lineBusy_pt : (s.lineBusy).pt = s.pt := rfl
@[simp] theorem State.lineBusy_cc : (s.lineBusy).cc = s.cc := rfl
@[simp] theorem State.lineBusy_su : (s.lineBusy).su = s.su := rfl
@[simp] theorem State.lineBusy_mu : (s.lineBusy).mu = s.mu := rfl
@[simp] theorem State.lineBusy_lc : (s.lineBusy).lc = s.lc.becomeBusy s.now := rfl

/-! ### State.lineIdle -/

@[simp] theorem State.lineIdle_now : (s.lineIdle).now = s.now := rfl
@[simp] theorem State.lineIdle_draws : (s.lineIdle).draws = s.draws := rfl
@[simp] theorem State.lineIdle_seq : (s.lineIdle).seq = s.seq := rfl
@[simp] theorem State.lineIdle_pending : (s.lineIdle).pending = s.pending := rfl
@[simp] theorem State.lineIdle_power : (s.lineIdle).power = s.power := rfl
@[simp] theorem State.lineIdle_retention : (s.lineIdle).retention = s.retention := rfl
@[simp] theorem State.lineIdle_pins : (s.lineIdle).pins = s.pins := rfl
@[simp] theorem State.lineIdle_tp : (s.lineIdle).tp = s.tp := rfl
@[simp] theorem State.lineIdle_ct : (s.lineIdle).ct = s.ct := rfl
@[simp] theorem State.lineIdle_ht : (s.lineIdle).ht = s.ht := rfl
@[simp] theorem State.lineIdle_tr : (s.lineIdle).tr = s.tr := rfl
@[simp] theorem State.lineIdle_xt : (s.lineIdle).xt = s.xt := rfl
@[simp] theorem State.lineIdle_pt : (s.lineIdle).pt = s.pt := rfl
@[simp] theorem State.lineIdle_cc : (s.lineIdle).cc = s.cc := rfl
@[simp] theorem State.lineIdle_su : (s.lineIdle).su = s.su := rfl
@[simp] theorem State.lineIdle_mu : (s.lineIdle).mu = s.mu := rfl
@[simp] theorem State.lineIdle_lc : (s.lineIdle).lc = s.lc.becomeIdle s.now := rfl

end Sys2Proof.Machine
end

