-- ==== Sys2Proof/Laws/Frame.lean ====
section
/-! SUPPORT. What each shared operation can change: for every operation, the parts of State it may touch. -/

namespace Sys2Proof.Machine

/-! ### Composition -/

theorem ChangesOnly.refl (ps : List Part) (s : State) : ChangesOnly ps s s := by
  intro p _; cases p <;> rfl

theorem ChangesOnly.mono {ps qs : List Part} {s t : State} (h : ChangesOnly ps s t) (hs : ∀ p ∈ ps, p ∈ qs) :
    ChangesOnly qs s t := fun p hp => h p fun hm => hp (hs p hm)

theorem Part.same_trans {p : Part} {s t u : State} (h : p.same s t) (g : p.same t u) : p.same s u := by
  cases p <;> exact Eq.trans g h

theorem ChangesOnly.trans {ps : List Part} {s t u : State} (h : ChangesOnly ps s t) (g : ChangesOnly ps t u) :
    ChangesOnly ps s u := fun p hp => Part.same_trans (h p hp) (g p hp)

theorem ChangesOnly.comp {ps qs rs : List Part} {s t u : State} (h : ChangesOnly ps s t) (g : ChangesOnly qs t u)
    (hp : ∀ p ∈ ps, p ∈ rs) (hq : ∀ p ∈ qs, p ∈ rs) : ChangesOnly rs s u := (h.mono hp).trans (g.mono hq)

theorem ChangesOnly.ite {ps : List Part} {s t u : State} {c : Prop} [Decidable c] (h : ChangesOnly ps s t)
    (g : ChangesOnly ps s u) : ChangesOnly ps s (if c then t else u) := by
  split
  · exact h
  · exact g

theorem ChangesOnly.foldl {α : Type} {ps : List Part} {f : State → α → State}
    (h : ∀ s a, ChangesOnly ps s (f s a)) (l : List α) : ∀ s, ChangesOnly ps s (l.foldl f s) := by
  induction l with
  | nil => intro s; exact .refl _ _
  | cons a l ih => intro s; exact (h s a).trans (ih _)

/-! ### Updates of one record -/

theorem State.atMoment_changes (s : State) (t : Moment) : ChangesOnly [.now] s (s.atMoment t) := by
  intro p hp; cases p <;> first | rfl | exact absurd (by decide) hp

theorem State.raiseSat_changes (s : State) (b : Bool) : ChangesOnly [.saturation] s (s.raiseSat b) := by
  intro p hp; cases p <;> first | rfl | exact absurd (by decide) hp

theorem State.modCard_changes (s : State) (n : Nat) (f : Card → Card) : ChangesOnly [.cards] s (s.modCard n f) := by
  intro p hp; cases p <;> first | rfl | exact absurd (by decide) hp

theorem State.modHold_changes (s : State) (i : Nat) (f : Hold → Hold) : ChangesOnly [.holds] s (s.modHold i f) := by
  intro p hp; cases p <;> first | rfl | exact absurd (by decide) hp

theorem State.modHeldSum_changes (s : State) (q : Nat) (f : Nat → Nat) :
    ChangesOnly [.holds] s (s.modHeldSum q f) := by
  intro p hp; cases p <;> first | rfl | exact absurd (by decide) hp

theorem State.modPeer_changes (s : State) (q : Nat) (f : PeerEntry → PeerEntry) :
    ChangesOnly [.peers] s (s.modPeer q f) := by
  intro p hp; cases p <;> first | rfl | exact absurd (by decide) hp

theorem State.modPeers_changes (s : State) (f : PeerEntry → PeerEntry) : ChangesOnly [.peers] s (s.modPeers f) := by
  intro p hp; cases p <;> first | rfl | exact absurd (by decide) hp

theorem State.modUsed_changes (s : State) (st : Settings) (f : PeerEntry → PeerEntry) :
    ChangesOnly [.peers] s (s.modUsed st f) := s.modPeers_changes _

theorem State.modExchange_changes (s : State) (tag : Nat) (f : Exchange → Exchange) :
    ChangesOnly [.exchanges] s (s.modExchange tag f) := by
  intro p hp; cases p <;> first | rfl | exact absurd (by decide) hp

theorem State.modTrail_changes (s : State) (n : Nat) (f : TrailEntry → TrailEntry) :
    ChangesOnly [.trail] s (s.modTrail n f) := by
  intro p hp; cases p <;> first | rfl | exact absurd (by decide) hp

theorem State.modWanted_changes (s : State) (q : Nat) (f : WantedMarks → WantedMarks) :
    ChangesOnly [.wanted] s (s.modWanted q f) := by
  intro p hp; cases p <;> first | rfl | exact absurd (by decide) hp

theorem State.enterResult_changes (s : State) (r : ResultRec) : ChangesOnly [.results] s (s.enterResult r) := by
  intro p hp; cases p <;> first | rfl | exact absurd (by decide) hp

theorem State.setCursor_changes (s : State) (k : Option Nat) : ChangesOnly [.cursor] s (s.setCursor k) := by
  intro p hp; cases p <;> first | rfl | exact absurd (by decide) hp

theorem State.keepTarget_changes (s : State) (t : Nat) : ChangesOnly [.cycles] s (s.keepTarget t) := by
  intro p hp; cases p <;> first | rfl | exact absurd (by decide) hp

theorem State.stopDriving_changes (s : State) (m : Moment) : ChangesOnly [.transmitter] s (s.stopDriving m) := by
  intro p hp; cases p <;> first | rfl | exact absurd (by decide) hp

theorem State.shiftOut_changes (s : State) (bs : List Byte) : ChangesOnly [.miso] s (s.shiftOut bs) := by
  intro p hp; cases p <;> first | rfl | exact absurd (by decide) hp

theorem State.respond_changes (s : State) (token : Token) (r : Reply) :
    ChangesOnly [.port] s (s.respond token r) := by
  intro p hp; cases p <;> first | rfl | exact absurd (by decide) hp

theorem State.countBusy_changes (s : State) : ChangesOnly [.port] s s.countBusy := by
  intro p hp; cases p <;> first | rfl | exact absurd (by decide) hp

theorem State.countBad_changes (s : State) : ChangesOnly [.badFrames] s s.countBad := by
  intro p hp; cases p <;> first | rfl | exact absurd (by decide) hp

theorem State.raiseSendFailed_changes (s : State) : ChangesOnly [.sendFailed] s s.raiseSendFailed := by
  intro p hp; cases p <;> first | rfl | exact absurd (by decide) hp

theorem State.forgetPresence_changes (s : State) : ChangesOnly [.peers] s s.forgetPresence := by
  intro p hp; cases p <;> first | rfl | exact absurd (by decide) hp

theorem relatch_changes (s : State) : ChangesOnly [.latched] s (relatch s) := by
  intro p hp; cases p <;> first | rfl | exact absurd (by decide) hp

theorem finish_changes (s : State) : ChangesOnly settled s (finish s) := by
  unfold finish
  split <;> (intro p hp; cases p <;> first | rfl | exact absurd (by decide) hp)

/-! ### Queues and results of the Link Controller (Link.lean) -/

theorem State.setRequestQ_changes (s : State) (q : List QFrame) :
    ChangesOnly [.requests, .draws] s (s.setRequestQ q) := by
  unfold State.setRequestQ
  split
  · intro p hp; cases p <;> first | rfl | exact absurd (by decide) hp
  · split <;> (intro p hp; cases p <;> first | rfl | exact absurd (by decide) hp)

theorem State.queueRequest_changes (s : State) (f : Frame) : ChangesOnly [.requests, .draws] s (s.queueRequest f) :=
  s.setRequestQ_changes _

theorem State.placeBeacon_changes (s : State) : ChangesOnly [.requests, .draws] s s.placeBeacon := by
  unfold State.placeBeacon
  split
  · exact s.setRequestQ_changes _
  · split <;> exact s.setRequestQ_changes _

/-- The parts that filling the request queue may touch. -/
def fillParts : List Part := [.requests, .draws, .beacons, .wanted, .exchanges]

theorem State.fillOne_changes (s t : State) (h : s.fillOne = some t) : ChangesOnly fillParts s t := by
  unfold State.fillOne at h
  split at h
  · cases h
  · split at h
    · cases h
      refine ChangesOnly.comp (qs := [.requests, .draws]) (ps := [.beacons])
        (t := { s with lc := { s.lc with heldBeacon := false } }) ?_ (State.placeBeacon_changes _) (by decide) (by decide)
      intro p hp; cases p <;> first | rfl | exact absurd (by decide) hp
    · split at h
      · split at h <;> cases h <;>
          exact (s.modWanted_changes _ _).comp (State.queueRequest_changes _ _) (by decide) (by decide)
      · split at h
        · cases h
          exact (s.modExchange_changes _ _).comp (State.queueRequest_changes _ _) (by decide) (by decide)
        · cases h

theorem State.fillTimes_changes (n : Nat) : ∀ s : State, ChangesOnly fillParts s (State.fillTimes n s) := by
  induction n with
  | zero => intro s; exact .refl _ _
  | succ n ih =>
    intro s
    unfold State.fillTimes
    split
    · rename_i t h
      exact (s.fillOne_changes t h).trans (ih t)
    · exact .refl _ _

theorem State.fillRequests_changes (s : State) : ChangesOnly fillParts s s.fillRequests := State.fillTimes_changes _ s

theorem State.makeBeacon_changes (s : State) : ChangesOnly [.requests, .draws, .beacons] s s.makeBeacon := by
  unfold State.makeBeacon
  split
  · exact .refl _ _
  · split
    · exact s.placeBeacon_changes.mono (by decide)
    · intro p hp; cases p <;> first | rfl | exact absurd (by decide) hp

theorem State.beaconDue_changes (s : State) (m : Moment) :
    ChangesOnly [.requests, .draws, .beacons] s (s.beaconDue m) := by
  refine ChangesOnly.trans (t := { s with
      lc := { s.lc with beaconAt := some (m + beaconInterval s.draws) }, draws := s.draws + 1 }) ?_
    (State.makeBeacon_changes _)
  intro p hp; cases p <;> first | rfl | exact absurd (by decide) hp

theorem State.offerAnswer_changes (s : State) (f : Frame) :
    ChangesOnly [.answers, .answerDropped] s (s.offerAnswer f) := by
  unfold State.offerAnswer
  split <;> (intro p hp; cases p <;> first | rfl | exact absurd (by decide) hp)

theorem State.answerTo_changes (s : State) (source tag : Nat) (b : Body) :
    ChangesOnly [.answers, .answerDropped] s (s.answerTo source tag b) := s.offerAnswer_changes _

theorem State.withdrawFrame_changes (s : State) (tag : Nat) :
    ChangesOnly [.requests, .draws] s (s.withdrawFrame tag) := by
  unfold State.withdrawFrame
  split
  · exact .refl _ _
  · split <;> exact s.setRequestQ_changes _

theorem State.resultDelivered_changes (s : State) (e : Exchange) :
    ChangesOnly [.exchanges] s (s.resultDelivered e) := by
  intro p hp; cases p <;> first | rfl | exact absurd (by decide) hp

theorem State.enterExchange_changes (s : State) (e : Exchange) (w : Waiting) :
    ChangesOnly [.results, .exchanges] s (s.enterExchange e w) :=
  (s.enterResult_changes _).comp (State.resultDelivered_changes _ _) (by decide) (by decide)

theorem State.enterLink_changes (s : State) (w : Waiting) : ChangesOnly [.results, .heldLink] s (s.enterLink w) := by
  intro p hp; cases p <;> first | rfl | exact absurd (by decide) hp

/-- The parts that filling the result queue may touch. -/
def resultParts : List Part := [.results, .exchanges, .heldLink]

theorem State.fillResult_changes (s t : State) (h : s.fillResult = some t) : ChangesOnly resultParts s t := by
  unfold State.fillResult at h
  split at h
  · cases h
  · split at h
    · cases h
    · cases h; exact (s.enterLink_changes _).mono (by decide)
    · split at h <;> cases h
      exact (s.enterExchange_changes _ _).mono (by decide)
    · split at h <;> cases h
      split
      · exact (s.enterExchange_changes _ _).mono (by decide)
      · exact (s.enterLink_changes _).mono (by decide)

theorem State.fillResultTimes_changes (n : Nat) :
    ∀ s : State, ChangesOnly resultParts s (State.fillResultTimes n s) := by
  induction n with
  | zero => intro s; exact .refl _ _
  | succ n ih =>
    intro s
    unfold State.fillResultTimes
    split
    · rename_i t h
      exact (s.fillResult_changes t h).trans (ih t)
    · exact .refl _ _

theorem State.fillResults_changes (s : State) : ChangesOnly resultParts s s.fillResults :=
  State.fillResultTimes_changes _ s

theorem State.linkResult_changes (s : State) (o : LinkOutcome) :
    ChangesOnly [.results, .heldLink, .place] s (s.linkResult o) := by
  unfold State.linkResult
  split
  · exact (s.enterResult_changes _).mono (by decide)
  · intro p hp; cases p <;> first | rfl | exact absurd (by decide) hp

/-! ### Position Table (Peers.lean) -/

theorem State.formExposure_changes (s : State) (st : Settings) (q : Nat) :
    ChangesOnly [.peers, .saturation] s (s.formExposure st q) :=
  (s.modPeer_changes _ _).comp (State.raiseSat_changes _ _) (by decide) (by decide)

theorem State.formExposures_changes (s : State) (st : Settings) :
    ChangesOnly [.peers, .saturation] s (s.formExposures st) :=
  (s.modPeers_changes _).comp (State.raiseSat_changes _ _) (by decide) (by decide)

theorem State.bookLiability_changes (s : State) (st : Settings) (q : Nat) (x : Int) :
    ChangesOnly [.peers, .saturation] s (s.bookLiability st q x) :=
  ((s.modPeer_changes _ _).comp (State.raiseSat_changes _ _) (by decide) (by decide)).trans
    (State.formExposure_changes _ _ _)

theorem State.bookAnswer_changes (s : State) (q amount b : Nat) (counts orphan : Bool) :
    ChangesOnly [.peers, .saturation] s (s.bookAnswer q amount b counts orphan) :=
  (s.modPeer_changes _ _).comp (State.raiseSat_changes _ _) (by decide) (by decide)

theorem State.setTallyWanted_changes (s : State) (q : Nat) : ChangesOnly fillParts s (s.setTallyWanted q) :=
  (s.modWanted_changes _ _).comp (State.fillRequests_changes _) (by decide) (by decide)

theorem State.setCheckWanted_changes (s : State) (q : Nat) : ChangesOnly fillParts s (s.setCheckWanted q) :=
  (s.modWanted_changes _ _).comp (State.fillRequests_changes _) (by decide) (by decide)

theorem State.askTally_changes (s : State) (q : Nat) : ChangesOnly fillParts s (s.askTally q) := by
  unfold State.askTally; exact .ite (s.setTallyWanted_changes q) (.refl _ _)

theorem State.askCheck_changes (s : State) (q : Nat) : ChangesOnly fillParts s (s.askCheck q) := by
  unfold State.askCheck; exact .ite (s.setCheckWanted_changes q) (.refl _ _)

theorem State.askOwed_changes (s : State) (q : Nat) : ChangesOnly fillParts s (s.askOwed q) :=
  (s.askTally_changes q).trans (State.askCheck_changes _ q)

theorem State.askOwedAll_changes (s : State) : ChangesOnly fillParts s s.askOwedAll :=
  ChangesOnly.foldl (fun s q => s.askOwed_changes q) _ s

theorem State.hearPeer_changes (s : State) (h : Header) : ChangesOnly (.peers :: fillParts) s (s.hearPeer h) := by
  unfold State.hearPeer
  exact .ite ((s.modPeer_changes _ _).comp (State.askOwed_changes _ _) (by decide) (by decide))
    ((s.modPeer_changes _ _).mono (by decide))

theorem State.protocolFault_changes (s : State) (q : Nat) : ChangesOnly [.peers, .latched] s (s.protocolFault q) :=
  (s.modPeer_changes _ _).comp (relatch_changes _) (by decide) (by decide)

/-! ### Card Table (Cards.lean) -/

/-- The parts that a lapse may touch. -/
def lapseParts : List Part := [.cards, .money, .saturation]

theorem State.lapseCard_changes (s : State) (c : Card) : ChangesOnly lapseParts s (s.lapseCard c) := by
  intro p hp; cases p <;> first | rfl | exact absurd (by decide) hp

theorem State.lapseIfDue_changes (s : State) (n : Nat) : ChangesOnly lapseParts s (s.lapseIfDue n) := by
  unfold State.lapseIfDue
  split
  · exact .ite (s.lapseCard_changes _) (.refl _ _)
  · exact .refl _ _

theorem State.cardCapture_changes (s : State) (n x h : Nat) (b : Bool) :
    ChangesOnly lapseParts s (s.cardCapture n x h b) := by
  intro p hp; cases p <;> first | rfl | exact absurd (by decide) hp

theorem State.cardRefund_changes (s : State) (n f : Nat) (b : Bool) :
    ChangesOnly lapseParts s (s.cardRefund n f b) := by
  intro p hp; cases p <;> first | rfl | exact absurd (by decide) hp

theorem State.floatIn_changes (s : State) (a : Nat) : ChangesOnly [.money, .saturation] s (s.floatIn a) := by
  intro p hp; cases p <;> first | rfl | exact absurd (by decide) hp

theorem State.issue_changes (s : State) (st : Settings) (a v : Nat) :
    ChangesOnly (.serials :: lapseParts) s (s.issue st a v).1 := by
  unfold State.issue
  split; · exact .refl _ _
  split; · exact .refl _ _
  split; · exact .refl _ _
  split; · exact .refl _ _
  split; · exact .refl _ _
  intro p hp; cases p <;> first | rfl | exact absurd (by decide) hp

theorem State.onCard_changes {ps : List Part} (s : State) (n : Nat) (f : State → Card → State × Reply)
    (hl : ∀ p ∈ lapseParts, p ∈ ps) (h : ∀ s c, ChangesOnly ps s (f s c).1) : ChangesOnly ps s (s.onCard n f).1 := by
  unfold State.onCard
  split
  · exact .refl _ _
  · dsimp only
    split
    · exact (s.lapseIfDue_changes n).mono hl
    · exact ((s.lapseIfDue_changes n).mono hl).trans (h _ _)

theorem State.load_changes (s : State) (st : Settings) (n a : Nat) :
    ChangesOnly lapseParts s (s.load st n a).1 := by
  refine s.onCard_changes n _ (by decide) fun s c => ?_
  split; · exact .refl _ _
  split; · exact .refl _ _
  split
  · exact .refl _ _
  · exact .refl _ _
  · exact .refl _ _
  · split; · exact .refl _ _
    split; · exact .refl _ _
    exact (s.modCard_changes _ _).comp (State.floatIn_changes _ _) (by decide) (by decide)

theorem State.cashout_changes (s : State) (n : Nat) : ChangesOnly lapseParts s (s.cashout n).1 := by
  refine s.onCard_changes n _ (by decide) fun s c => ?_
  split; · exact .refl _ _
  split; · exact .refl _ _
  split; · exact .refl _ _
  intro p hp; cases p <;> first | rfl | exact absurd (by decide) hp

theorem State.setFrozen_changes (s : State) (n : Nat) (g : CardState) :
    ChangesOnly lapseParts s (s.setFrozen n g).1 := by
  refine s.onCard_changes n _ (by decide) fun s c => ?_
  split; · exact .refl _ _
  split; · exact .refl _ _
  split; · exact .refl _ _
  exact (s.modCard_changes _ _).mono (by decide)

theorem State.enquireOwn_changes (s : State) (n : Nat) : ChangesOnly lapseParts s (s.enquireOwn n).1 :=
  s.onCard_changes n _ (by decide) fun s _ => .refl _ s

theorem State.examine_changes (s : State) (st : Settings) (c : Card) :
    ChangesOnly lapseParts s (s.examine st c) := by
  unfold State.examine
  dsimp only
  split; · exact .refl _ _
  split; · exact s.lapseCard_changes c
  split
  · intro p hp; cases p <;> first | rfl | exact absurd (by decide) hp
  · exact (s.modCard_changes _ _).mono (by decide)

/-! ### Hold Table and Capture Trail (Holds.lean) -/

/-- The parts that an operation of the Hold Table or the Capture Trail may touch. -/
def holdParts : List Part := [.cards, .money, .saturation, .holds, .trail, .peers]

theorem State.takeCell_changes (s t : State) (st : Settings) (h : s.takeCell st = some t) :
    ChangesOnly [.holds] s t := by
  unfold State.takeCell at h
  split at h
  · cases h; exact .refl _ _
  · split at h <;> cases h
    intro p hp; cases p <;> first | rfl | exact absurd (by decide) hp

theorem State.makeHold_changes (s : State) (st : Settings) (asker : Nat) (askTag : Option Nat)
    (serial asked least g : Nat) :
    ChangesOnly [.cards, .holds, .peers, .saturation] s (s.makeHold st asker askTag serial asked least g) := by
  have hg : ∀ s1 : State, ChangesOnly [.cards, .holds] s s1 →
      ChangesOnly [.cards, .holds, .peers, .saturation] s
        (if (asker != st.station) = true then (s1.modHeldSum asker fun x => x + g).formExposure st asker else s1) := by
    intro s1 h1
    have h2 := h1.mono (qs := [.cards, .holds, .peers, .saturation]) (by decide)
    have h3 := (s1.modHeldSum_changes asker fun x => x + g).mono (qs := [.cards, .holds, .peers, .saturation])
      (by decide)
    have h4 := (State.formExposure_changes (s1.modHeldSum asker fun x => x + g) st asker).mono
      (qs := [.cards, .holds, .peers, .saturation]) (by decide)
    exact .ite ((h2.trans h3).trans h4) h2
  refine hg _ ?_
  intro p hp; cases p <;> first | rfl | exact absurd (by decide) hp

theorem State.grantOn_changes (s : State) (st : Settings) (asker : Nat) (askTag : Option Nat) (c : Card)
    (asked least : Nat) : ChangesOnly holdParts s (s.grantOn st asker askTag c asked least).1 := by
  unfold State.grantOn
  split; · exact .refl _ _
  split
  · exact .refl _ _
  · exact .refl _ _
  · split
    · exact .refl _ _
    · rename_i s' h
      exact (s.takeCell_changes s' st h).comp (State.makeHold_changes _ _ _ _ _ _ _ _) (by decide) (by decide)

theorem State.requestHold_changes (s : State) (st : Settings) (asker : Nat) (askTag : Option Nat)
    (home serial asked least : Nat) :
    ChangesOnly holdParts s (s.requestHold st asker askTag home serial asked least).1 := by
  unfold State.requestHold
  split; · exact .refl _ _
  split
  · exact .refl _ _
  · dsimp only
    have hl := (s.lapseIfDue_changes serial).mono (qs := holdParts) (by decide)
    split
    · exact hl
    · split
      · exact hl
      · split
        · exact hl
        · exact hl.trans (State.grantOn_changes _ _ _ _ _ _ _)

theorem State.serveAsk_changes (s : State) (st : Settings) (asker tag home serial asked least : Nat) :
    ChangesOnly (.latched :: holdParts) s (s.serveAsk st asker tag home serial asked least).1 := by
  unfold State.serveAsk
  split; · exact .refl _ _
  split; · exact .refl _ _
  split; · exact .refl _ _
  split; · exact .refl _ _
  split
  · split
    · exact .refl _ _
    · exact (s.protocolFault_changes _).mono (by decide)
  · exact (s.requestHold_changes _ _ _ _ _ _ _).mono (by decide)

theorem State.authorizeOwn_changes (s : State) (st : Settings) (serial asked least : Nat) :
    ChangesOnly holdParts s (s.authorizeOwn st serial asked least).1 := by
  unfold State.authorizeOwn
  split; · exact .refl _ _
  split; · exact .refl _ _
  exact s.requestHold_changes _ _ _ _ _ _ _

theorem State.endHold_changes (s : State) (st : Settings) (h : Hold) (f : Hold → Hold) :
    ChangesOnly [.holds] s (s.endHold st h f) := by
  unfold State.endHold
  dsimp only
  split <;> (intro p hp; cases p <;> first | rfl | exact absurd (by decide) hp)

theorem State.afterPeerEnd_changes (s : State) (st : Settings) (h : Hold) :
    ChangesOnly [.peers, .saturation] s (s.afterPeerEnd st h) := by
  unfold State.afterPeerEnd; exact .ite (s.formExposure_changes _ _) (.refl _ _)

theorem State.releaseHold_changes (s : State) (st : Settings) (h : Hold) (g : HoldState) :
    ChangesOnly [.cards, .holds, .peers, .saturation] s (s.releaseHold st h g) :=
  ((s.modCard_changes _ _).comp (State.endHold_changes _ _ _ _) (rs := [.cards, .holds]) (by decide) (by decide)).comp
    (State.afterPeerEnd_changes _ _ _) (by decide) (by decide)

theorem State.trailMake_changes (s : State) (room : List TrailEntry) (serial redeemer : Nat) (tag : Option Nat)
    (x : Nat) : ChangesOnly [.trail] s (s.trailMake room serial redeemer tag x) := by
  intro p hp; cases p <;> first | rfl | exact absurd (by decide) hp

theorem State.captureHold_changes (s : State) (st : Settings) (h : Hold) (room : List TrailEntry)
    (tag : Option Nat) (x : Nat) : ChangesOnly holdParts s (s.captureHold st h room tag x) := by
  unfold State.captureHold
  dsimp only
  have h3 : ∀ b : Bool, ChangesOnly holdParts s
      (((s.trailMake room h.serial h.asker tag x).cardCapture h.serial x h.amount b).endHold st h fun k =>
        k.capture tag x s.tr.nextNumber s.cc.openCycle) := fun b =>
    ((s.trailMake_changes room h.serial h.asker tag x).comp (State.cardCapture_changes _ _ _ _ _)
      (rs := holdParts) (by decide) (by decide)).trans ((State.endHold_changes _ _ _ _).mono (by decide))
  split
  · exact (h3 _).trans ((State.bookLiability_changes _ _ _ _).mono (by decide))
  · exact h3 _

theorem State.captureOpen_changes (s : State) (st : Settings) (h : Hold) (tag : Option Nat) (x : Nat) :
    ChangesOnly holdParts s (s.captureOpen st h tag x).1 := by
  unfold State.captureOpen
  split; · exact .refl _ _
  split
  · exact .refl _ _
  · exact (s.captureHold_changes _ _ _ _ _).trans ((State.lapseIfDue_changes _ _).mono (by decide))

theorem State.serveTake_changes (s : State) (st : Settings) (asker tag id serial x : Nat) :
    ChangesOnly holdParts s (s.serveTake st asker tag id serial x).1 := by
  unfold State.serveTake
  split
  · split
    · exact s.captureOpen_changes _ _ _ _
    · split
      · exact (s.lapseIfDue_changes _).mono (by decide)
      · exact .refl _ _
    · exact .refl _ _
    · exact .refl _ _
  · split
    · exact (s.lapseIfDue_changes _).mono (by decide)
    · exact .refl _ _

theorem State.captureOwn_changes (s : State) (st : Settings) (serial id x : Nat) :
    ChangesOnly holdParts s (s.captureOwn st serial id x).1 := by
  unfold State.captureOwn
  split
  · exact .refl _ _
  · split
    · exact s.captureOpen_changes _ _ _ _
    · exact .refl _ _

theorem State.freeHold_changes (s : State) (st : Settings) (asker id serial : Nat) :
    ChangesOnly holdParts s (s.freeHold st asker id serial).1 := by
  unfold State.freeHold
  split
  · exact .refl _ _
  · split
    · exact (s.releaseHold_changes _ _ _).comp (State.lapseIfDue_changes _ _) (by decide) (by decide)
    · exact (s.lapseIfDue_changes _).mono (by decide)
    · exact (s.lapseIfDue_changes _).mono (by decide)
    · exact .refl _ _

theorem State.holdDeadline_changes (s : State) (st : Settings) (id : Nat) :
    ChangesOnly holdParts s (s.holdDeadline st id) := by
  unfold State.holdDeadline
  split
  · exact .refl _ _
  · split
    · exact .ite ((s.releaseHold_changes _ _ _).comp (State.lapseIfDue_changes _ _) (by decide) (by decide)) (.refl _ _)
    · exact .refl _ _

theorem State.applyRefund_changes (s : State) (st : Settings) (e : TrailEntry) (f : Nat) (tag : Option Nat) :
    ChangesOnly holdParts s (s.applyRefund st e f tag) := by
  unfold State.applyRefund
  dsimp only
  have h2 := (s.modTrail_changes e.number fun e => e.refund f tag s.cc.openCycle).comp
    (State.cardRefund_changes _ e.serial f (!(e.redeemer != st.station))) (rs := holdParts) (by decide) (by decide)
  split
  · exact h2.trans ((State.bookLiability_changes _ _ _ _).mono (by decide))
  · exact h2

theorem State.refundOn_changes (s : State) (st : Settings) (e : TrailEntry) (f : Nat) (tag : Option Nat) :
    ChangesOnly holdParts s (s.refundOn st e f tag).1 := by
  unfold State.refundOn
  split; · exact .refl _ _
  split
  · exact .refl _ _
  · dsimp only
    have hl := (s.lapseIfDue_changes e.serial).mono (qs := holdParts) (by decide)
    split
    · exact hl
    · split; · exact hl
      split; · exact hl
      split; · exact hl
      split; · exact hl
      exact hl.trans (State.applyRefund_changes _ _ _ _ _)

theorem State.serveCredit_changes (s : State) (st : Settings) (source tag serial number f : Nat) :
    ChangesOnly holdParts s (s.serveCredit st source tag serial number f).1 := by
  unfold State.serveCredit
  split
  · exact .refl _ _
  · split; · exact .refl _ _
    split; · exact .refl _ _
    split
    · split
      · exact (s.lapseIfDue_changes _).mono (by decide)
      · exact s.refundOn_changes _ _ _ _
    · exact s.refundOn_changes _ _ _ _

theorem State.refundOwn_changes (s : State) (st : Settings) (serial number f : Nat) :
    ChangesOnly holdParts s (s.refundOwn st serial number f).1 := by
  unfold State.refundOwn
  split
  · exact .refl _ _
  · split; · exact .refl _ _
    split; · exact .refl _ _
    exact s.refundOn_changes _ _ _ _

/-! ### Exchange Table (Exchanges.lean) -/

theorem State.addExchange_changes (s : State) (params : ExParams) (home serial : Nat) (token : Option Token) :
    ChangesOnly [.exchanges] s (s.addExchange params home serial token) := by
  intro p hp; cases p <;> first | rfl | exact absurd (by decide) hp

theorem State.openExchange_changes (s : State) (x : ExParams) (home serial : Nat) (token : Token) :
    ChangesOnly fillParts s (s.openExchange x home serial token).1 := by
  unfold State.openExchange
  split
  · exact .refl _ _
  · split
    · exact .refl _ _
    · exact (s.addExchange_changes _ _ _ _).comp (State.fillRequests_changes _) (by decide) (by decide)

theorem State.joinEnded_changes (s : State) (e : EndedEntry) : ChangesOnly [.exchanges] s (s.joinEnded e) := by
  intro p hp; cases p <;> first | rfl | exact absurd (by decide) hp

theorem State.finishExchange_changes (s : State) (e : Exchange) (b : Bool) (o : ExOutcome) :
    ChangesOnly [.exchanges, .place] s (s.finishExchange e b o) := by
  unfold State.finishExchange
  split <;> (intro p hp; cases p <;> first | rfl | exact absurd (by decide) hp)

/-- The parts that the end of an exchange may touch. -/
def endParts : List Part :=
  [.exchanges, .place, .results, .heldLink, .requests, .draws, .beacons, .wanted]

theorem State.endByAnswer_changes (s : State) (e : Exchange) (ending : Ending) (i n : Option Nat) (o : ExOutcome) :
    ChangesOnly endParts s (s.endByAnswer e ending i n o) := by
  unfold State.endByAnswer
  exact ((((s.finishExchange_changes e _ o).comp (State.joinEnded_changes _ _) (rs := endParts) (by decide)
    (by decide)).comp (State.withdrawFrame_changes _ _) (rs := endParts) (by decide) (by decide)).comp
      (State.fillResults_changes _) (rs := endParts) (by decide) (by decide)).comp
        (State.fillRequests_changes _) (by decide) (by decide)

theorem State.setAside_changes (s : State) (e : Exchange) :
    ChangesOnly [.exchanges, .place] s (s.setAside e) := by
  unfold State.setAside
  split
  · intro p hp; cases p <;> first | rfl | exact absurd (by decide) hp
  · intro p hp; cases p <;> first | rfl | exact absurd (by decide) hp
  · exact (s.finishExchange_changes e _ _).comp (State.joinEnded_changes _ _) (by decide) (by decide)

theorem State.setAsideAll_changes (s : State) : ChangesOnly [.exchanges, .place] s s.setAsideAll := by
  refine (ChangesOnly.foldl (fun s e => s.setAside_changes e) (s.xt.exchanges.filter Exchange.underWay) s).trans ?_
  intro p hp; cases p <;> first | rfl | exact absurd (by decide) hp

theorem State.reportFrame_changes (s : State) (tag : Nat) (m : Moment) :
    ChangesOnly [.exchanges] s (s.reportFrame tag m) := s.modExchange_changes _ _

theorem State.replyTimeout_changes (s : State) (tag : Nat) : ChangesOnly endParts s (s.replyTimeout tag) := by
  unfold State.replyTimeout
  split
  · exact .refl _ _
  · split
    · split
      · split
        · exact (s.modExchange_changes _ _).comp (State.fillRequests_changes _) (by decide) (by decide)
        · exact (s.setAside_changes _).comp (State.fillResults_changes _) (by decide) (by decide)
      · exact .refl _ _
    · exact .refl _ _

theorem State.wantResends_changes (s : State) (home : Nat) : ChangesOnly fillParts s (s.wantResends home) := by
  refine ChangesOnly.trans ?_ (State.fillRequests_changes _)
  intro p hp; cases p <;> first | rfl | exact absurd (by decide) hp

theorem State.orphanGrant_changes (s : State) (source tag id : Nat) :
    ChangesOnly fillParts s (s.orphanGrant source tag id) := by
  unfold State.orphanGrant
  split; · exact .refl _ _
  split
  · exact .refl _ _
  · split
    · exact .refl _ _
    · exact (s.addExchange_changes _ _ _ _).comp (State.fillRequests_changes _) (by decide) (by decide)

/-- The parts that an answer from a peer may touch. -/
def answerParts : List Part := .peers :: .saturation :: endParts

theorem State.orphan_changes (s : State) (source tag : Nat) (b : Body) :
    ChangesOnly answerParts s (s.orphan source tag b) := by
  unfold State.orphan
  split
  · exact (s.orphanGrant_changes _ _ _).mono (by decide)
  · exact (s.bookAnswer_changes _ _ _ _ _).mono (by decide)
  · exact (s.bookAnswer_changes _ _ _ _ _).mono (by decide)
  · exact .refl _ _

theorem State.takeAnswer_changes (s : State) (source : Nat) (e : Exchange) (b : Body) :
    ChangesOnly answerParts s (s.takeAnswer source e b) := by
  unfold State.takeAnswer
  split
  · exact (s.endByAnswer_changes _ _ _ _ _).mono (by decide)
  · exact (s.bookAnswer_changes _ _ _ _ _).comp (State.endByAnswer_changes _ _ _ _ _ _) (by decide) (by decide)
  · exact (s.endByAnswer_changes _ _ _ _ _).mono (by decide)
  · exact (s.bookAnswer_changes _ _ _ _ _).comp (State.endByAnswer_changes _ _ _ _ _ _) (by decide) (by decide)
  · exact (s.endByAnswer_changes _ _ _ _ _).mono (by decide)
  · exact .refl _ _

theorem State.serveAnswer_changes (s : State) (source tag : Nat) (b : Body) :
    ChangesOnly answerParts s (s.serveAnswer source tag b) := by
  unfold State.serveAnswer
  split
  · exact s.takeAnswer_changes _ _ _
  · split
    · exact .refl _ _
    · exact s.orphan_changes _ _ _

/-! ### Statements and cycles (Statements.lean, Cycles.lean) -/

theorem State.placeStatement_changes (s : State) (no : SlotNo) (x : StatementSource) :
    ChangesOnly [.statements, .saturation] s (s.placeStatement no x) := by
  intro p hp; cases p <;> first | rfl | exact absurd (by decide) hp

theorem State.report_changes (s : State) (st : Settings) :
    ChangesOnly [.statements, .saturation] s (s.report st).1 := by
  unfold State.report
  split
  · intro p hp; cases p <;> first | rfl | exact absurd (by decide) hp
  · exact s.placeStatement_changes _ _

theorem State.sweepOfNothing_changes (s : State) : ChangesOnly [.cursor, .cycles] s s.sweepOfNothing := by
  unfold State.sweepOfNothing
  split
  · intro p hp; cases p <;> first | rfl | exact absurd (by decide) hp
  · exact .refl _ _

/-- The parts that a close may touch. -/
def closeParts : List Part := [.peers, .saturation, .money, .cursor, .cycles, .latched]

theorem State.closeAt_changes (s : State) (st : Settings) (t : Nat) : ChangesOnly closeParts s (s.closeAt st t) := by
  unfold State.closeAt
  dsimp only
  refine ChangesOnly.trans (t := State.sweepOfNothing _) ?_ ((relatch_changes _).mono (by decide))
  refine ChangesOnly.trans (t := State.formExposures _ _) ?_ ((State.sweepOfNothing_changes _).mono (by decide))
  refine ChangesOnly.trans (t := { s.modUsed st PeerEntry.close with
    ct := s.ct.close, cc := s.cc.close t (s.windowEnd st) }) ?_ ((State.formExposures_changes _ _).mono (by decide))
  intro p hp; cases p <;> first | rfl | exact absurd (by decide) hp

theorem State.retestTallies_changes (s : State) (st : Settings) :
    ChangesOnly [.peers, .saturation] s (s.retestTallies st) :=
  (s.modUsed_changes _ _).comp (State.raiseSat_changes _ _) (by decide) (by decide)

theorem State.askTallies_changes (s : State) (st : Settings) : ChangesOnly fillParts s (s.askTallies st) :=
  ChangesOnly.foldl (fun s q => s.askTally_changes q) _ s

/-- The parts that the completion of a seal, and a close after it, may touch. -/
def sealParts : List Part := .statements :: (closeParts ++ fillParts)

theorem State.completeSeal_changes (s : State) (st : Settings) (x : SealingSet) (no : SlotNo) :
    ChangesOnly sealParts s (s.completeSeal st x no) := by
  unfold State.completeSeal
  dsimp only
  refine ChangesOnly.trans (t := relatch _) ?_ ((State.askTallies_changes _ _).mono (by decide))
  refine ChangesOnly.trans (t := State.retestTallies _ _) ?_ ((relatch_changes _).mono (by decide))
  refine ChangesOnly.trans (t := State.formExposures _ _) ?_ ((State.retestTallies_changes _ _).mono (by decide))
  refine ChangesOnly.trans ?_ ((State.formExposures_changes _ _).mono (by decide))
  refine ChangesOnly.trans
    (t := ((s.placeStatement no (s.sealSource st x)).modUsed st fun e => e.sealAt x.cycle).raiseSat
      (((s.placeStatement no (s.sealSource st x)).usedPeers st).any PeerEntry.sealSat)) ?_ ?_
  · exact (((s.placeStatement_changes _ _).comp (State.modUsed_changes _ _ _) (rs := sealParts) (by decide)
      (by decide)).comp (State.raiseSat_changes _ _) (by decide) (by decide))
  · intro p hp; cases p <;> first | rfl | exact absurd (by decide) hp

theorem State.pendingClose_changes (s : State) (st : Settings) : ChangesOnly closeParts s (s.pendingClose st) := by
  unfold State.pendingClose
  split
  · exact s.closeAt_changes _ _
  · exact .refl _ _

theorem State.makeSeal_changes (s : State) (st : Settings) (forced : Bool) :
    ChangesOnly sealParts s (s.makeSeal st forced) := by
  unfold State.makeSeal
  split
  · exact .refl _ _
  · rename_i x _
    dsimp only
    have h1 : ChangesOnly sealParts s
        { s with cc := { s.cc with sealing := some { x with forced := forced }, sealTimer := none } } := by
      intro p hp; cases p <;> first | rfl | exact absurd (by decide) hp
    split
    · exact (h1.trans (State.completeSeal_changes _ _ _ _)).trans ((State.pendingClose_changes _ _).mono (by decide))
    · refine h1.trans ?_
      intro p hp; cases p <;> first | rfl | exact absurd (by decide) hp

theorem State.completeDeferred_changes (s : State) (st : Settings) :
    ChangesOnly sealParts s (s.completeDeferred st) := by
  unfold State.completeDeferred
  split
  · exact (s.completeSeal_changes _ _ _).trans ((State.pendingClose_changes _ _).mono (by decide))
  · exact .refl _ _

theorem State.sweepEnd_changes (s : State) (st : Settings) : ChangesOnly sealParts s (s.sweepEnd st) := by
  unfold State.sweepEnd
  dsimp only
  split
  · exact ((s.setCursor_changes none).mono (by decide)).trans (State.makeSeal_changes _ _ _)
  · intro p hp; cases p <;> first | rfl | exact absurd (by decide) hp

theorem State.sweepStep_changes (s : State) (st : Settings) :
    ChangesOnly (.cards :: sealParts) s (s.sweepStep st) := by
  unfold State.sweepStep
  split; · exact .refl _ _
  split
  · exact (s.sweepEnd_changes st).mono (by decide)
  · dsimp only
    have h := (s.examine_changes st ‹Card›).comp (State.setCursor_changes _ (some ‹Card›.serial))
      (rs := .cards :: sealParts) (by decide) (by decide)
    split
    · exact h.trans ((State.sweepEnd_changes _ st).mono (by decide))
    · exact h

theorem State.windowExpiry_changes (s : State) (st : Settings) : ChangesOnly sealParts s (s.windowExpiry st) := by
  unfold State.windowExpiry
  split
  · exact .refl _ _
  · split
    · dsimp only
      have h : ChangesOnly sealParts s { s with cc := { s.cc with sealTimer := none } } := by
        intro p hp; cases p <;> first | rfl | exact absurd (by decide) hp
      split
      · exact h.trans (State.makeSeal_changes _ _ _)
      · exact h
    · exact .refl _ _

theorem State.sealDue_changes (s : State) (st : Settings) : ChangesOnly sealParts s (s.sealDue st) := by
  unfold State.sealDue; exact .ite (s.makeSeal_changes _ _) (.refl _ _)

theorem State.catchUp_changes (s : State) (st : Settings) (t : Nat) : ChangesOnly sealParts s (s.catchUp st t) := by
  unfold State.catchUp
  split
  · exact (s.closeAt_changes _ _).mono (by decide)
  · exact (s.keepTarget_changes _).mono (by decide)
  · exact ((s.keepTarget_changes _).mono (by decide)).trans (State.makeSeal_changes _ _ _)
  · exact (s.keepTarget_changes _).mono (by decide)

theorem State.catchUpCheck_changes (s : State) (st : Settings) (c : Nat) :
    ChangesOnly sealParts s (s.catchUpCheck st c) := by
  unfold State.catchUpCheck; exact .ite (s.catchUp_changes _ _) (.refl _ _)

theorem State.closeDay_changes (s : State) (st : Settings) : ChangesOnly sealParts s (s.closeDay st).1 := by
  unfold State.closeDay
  dsimp only
  split; · exact .refl _ _
  split
  · exact (s.closeAt_changes _ _).mono (by decide)
  · exact (s.keepTarget_changes _).mono (by decide)
  · split
    · exact ((s.keepTarget_changes _).mono (by decide)).trans (State.makeSeal_changes _ _ _)
    · exact s.makeSeal_changes _ _
  · exact .refl _ _

theorem State.readStatement_changes (s : State) (st : Settings) :
    ChangesOnly sealParts s (s.readStatement st).1 := by
  unfold State.readStatement
  split
  · exact .refl _ _
  · dsimp only
    split
    · intro p hp; cases p <;> first | rfl | exact absurd (by decide) hp
    · refine ChangesOnly.trans ?_ (State.completeDeferred_changes _ _)
      intro p hp; cases p <;> first | rfl | exact absurd (by decide) hp

theorem State.setRate_changes (s : State) (r f e : Nat) : ChangesOnly [.cycles] s (s.setRate r f e).1 := by
  unfold State.setRate
  split; · exact .refl _ _
  split; · exact .refl _ _
  split; · exact .refl _ _
  intro p hp; cases p <;> first | rfl | exact absurd (by decide) hp

/-! ### Station states and the transmitter (Station.lean) -/

/-- The parts that entry to WITHDRAWN may touch. -/
def withdrawParts : List Part :=
  [.station, .answers, .requests, .transmitter, .beacons, .wanted, .listen, .badFrames, .exchanges, .place, .peers,
   .results, .heldLink]

theorem State.withdraw_changes (s : State) : ChangesOnly withdrawParts s s.withdraw := by
  unfold State.withdraw
  refine ChangesOnly.trans (t := State.forgetPresence _) ?_ ((State.fillResults_changes _).mono (by decide))
  refine ChangesOnly.trans (t := State.setAsideAll _) ?_ ((State.forgetPresence_changes _).mono (by decide))
  refine ChangesOnly.trans ?_ ((State.setAsideAll_changes _).mono (by decide))
  intro p hp; cases p <;> first | rfl | exact absurd (by decide) hp

theorem State.clashFound_changes (s : State) : ChangesOnly (.clash :: withdrawParts) s s.clashFound := by
  unfold State.clashFound
  have h2 : ∀ s : State, ChangesOnly (.clash :: withdrawParts) s
      (({ s.withdraw with lc := { s.withdraw.lc with clash := true } } : State).linkResult .clash) := by
    intro s
    refine ((s.withdraw_changes).mono (qs := .clash :: withdrawParts) (by decide)).trans ?_
    refine ChangesOnly.trans ?_ ((State.linkResult_changes _ _).mono (by decide))
    intro p hp; cases p <;> first | rfl | exact absurd (by decide) hp
  split
  · refine ChangesOnly.trans ?_ ((State.linkResult_changes _ _).mono (by decide))
    refine ChangesOnly.trans ?_ ((State.forgetPresence_changes _).mono (by decide))
    intro p hp; cases p <;> first | rfl | exact absurd (by decide) hp
  · exact h2 s
  · exact h2 s
  · exact .refl _ _

theorem State.drainTest_changes (s : State) : ChangesOnly withdrawParts s s.drainTest := by
  unfold State.drainTest
  exact .ite (s.withdraw_changes.trans ((State.linkResult_changes _ _).mono (by decide))) (.refl _ _)

/-- The drain test does nothing outside DRAINING (R93). -/
theorem State.drainTest_of_not_draining (s : State) (h : s.lc.station ≠ .draining) : s.drainTest = s := by
  unfold State.drainTest
  cases hs : s.lc.station <;> simp_all

theorem State.join_changes (s : State) : ChangesOnly [.station, .listen, .clash] s s.join.1 := by
  unfold State.join
  split
  · intro p hp; cases p <;> first | rfl | exact absurd (by decide) hp
  · intro p hp; cases p <;> first | rfl | exact absurd (by decide) hp
  · exact .refl _ _

theorem State.drain_changes (s : State) : ChangesOnly withdrawParts s s.drain.1 := by
  unfold State.drain
  split
  · refine ChangesOnly.trans ?_ (State.drainTest_changes _)
    intro p hp; cases p <;> first | rfl | exact absurd (by decide) hp
  · exact .refl _ _
  · exact .refl _ _

theorem State.leave_changes (s : State) : ChangesOnly withdrawParts s s.leave.1 := by
  unfold State.leave
  split
  · exact s.withdraw_changes
  · exact s.withdraw_changes
  · exact s.withdraw_changes
  · exact .refl _ _

/-- The parts that the end of a listen may touch. -/
def listenParts : List Part := [.station, .listen, .results, .heldLink, .place] ++ fillParts

theorem State.listenOver_changes (s : State) : ChangesOnly listenParts s s.listenOver := by
  unfold State.listenOver
  split
  · split
    · refine ChangesOnly.trans (t := State.askOwedAll _) ?_ ((State.linkResult_changes _ _).mono (by decide))
      refine ChangesOnly.trans (t := State.beaconDue _ _) ?_ ((State.askOwedAll_changes _).mono (by decide))
      refine ChangesOnly.trans ?_ ((State.beaconDue_changes _ _).mono (by decide))
      intro p hp; cases p <;> first | rfl | exact absurd (by decide) hp
    · exact .refl _ _
  · exact .refl _ _

theorem State.becomeBusy_changes (s : State) (tx : Tx) (lr : Option Moment) :
    ChangesOnly [.answers, .requests, .transmitter] s
      { s with lc := { s.lc.becomeBusy s.now with tx := tx, lastRequest := lr } } := by
  unfold Link.becomeBusy
  split <;> (intro p hp; cases p <;> first | rfl | exact absurd (by decide) hp)

theorem State.lineBusy_changes (s : State) :
    ChangesOnly [.answers, .requests, .transmitter] s s.lineBusy := by
  unfold State.lineBusy Link.becomeBusy
  split <;> (intro p hp; cases p <;> first | rfl | exact absurd (by decide) hp)

theorem State.lineIdle_changes (s : State) : ChangesOnly [.transmitter] s s.lineIdle := by
  unfold State.lineIdle Link.becomeIdle
  split <;> (intro p hp; cases p <;> first | rfl | exact absurd (by decide) hp)

theorem State.startFrame_changes (s : State) (answer : Bool) (f : QFrame) :
    ChangesOnly [.answers, .requests, .transmitter] s (s.startFrame answer f) := by
  unfold State.startFrame Link.becomeBusy
  split <;> (intro p hp; cases p <;> first | rfl | exact absurd (by decide) hp)

theorem State.startAnswer_changes (s : State) : ChangesOnly [.answers, .requests, .transmitter] s s.startAnswer := by
  unfold State.startAnswer
  split
  · exact s.startFrame_changes _ _
  · exact .refl _ _

theorem State.startRequest_changes (s : State) (st : Settings) :
    ChangesOnly [.answers, .requests, .transmitter] s (s.startRequest st) := by
  unfold State.startRequest
  split
  · rename_i f _
    refine (s.startFrame_changes false f).trans ?_
    intro p hp; cases p <;> first | rfl | exact absurd (by decide) hp
  · exact .refl _ _

theorem State.spacingExpiry_changes (s : State) (st : Settings) :
    ChangesOnly [.answers, .requests, .transmitter] s (s.spacingExpiry st) := by
  unfold State.spacingExpiry; exact .ite (s.startRequest_changes st) (.refl _ _)

theorem State.reportDiscard_changes (s : State) (f : Frame) : ChangesOnly fillParts s (s.reportDiscard f) := by
  unfold State.reportDiscard
  split
  · exact s.askTally_changes _
  · exact s.askCheck_changes _
  · exact .refl _ _
  · exact (s.reportFrame_changes _ _).mono (by decide)

theorem State.reportSent_changes (s : State) (f : Frame) (m : Moment) :
    ChangesOnly [.exchanges, .peers] s (s.reportSent f m) := by
  unfold State.reportSent
  split
  · exact (s.modPeer_changes _ _).mono (by decide)
  · exact .refl _ _
  · exact .refl _ _
  · exact (s.reportFrame_changes _ _).mono (by decide)

/-- The parts that the end of a frame may touch. -/
def frameParts : List Part := [.transmitter, .answers, .sendFailed, .peers] ++ fillParts

theorem State.answerCollided_changes (s : State) :
    ChangesOnly [.answers, .sendFailed, .draws] s s.answerCollided := by
  unfold State.answerCollided
  split
  · exact .refl _ _
  · split <;> (intro p hp; cases p <;> first | rfl | exact absurd (by decide) hp)

theorem State.requestCollided_changes (s : State) :
    ChangesOnly (.sendFailed :: fillParts) s s.requestCollided := by
  unfold State.requestCollided
  split
  · exact .refl _ _
  · split
    · exact (((s.setRequestQ_changes _).comp (State.raiseSendFailed_changes _) (rs := .sendFailed :: fillParts)
        (by decide) (by decide)).comp (State.reportDiscard_changes _ _) (rs := .sendFailed :: fillParts) (by decide)
          (by decide)).comp (State.fillRequests_changes _) (by decide) (by decide)
    · exact (s.setRequestQ_changes _).mono (by decide)

theorem State.collide_changes (s : State) : ChangesOnly frameParts s s.collide := by
  unfold State.collide
  split
  · exact .refl _ _
  · split
    · dsimp only
      split
      · exact (s.stopDriving_changes _).comp (State.answerCollided_changes _) (by decide) (by decide)
      · exact (s.stopDriving_changes _).comp (State.requestCollided_changes _) (by decide) (by decide)
    · exact .refl _ _

theorem State.requestSent_changes (s : State) (m : Moment) :
    ChangesOnly (.peers :: fillParts) s (s.requestSent m) := by
  unfold State.requestSent
  split
  · exact .refl _ _
  · exact ((s.setRequestQ_changes _).comp (State.reportSent_changes _ _ _) (rs := .peers :: fillParts) (by decide)
      (by decide)).comp (State.fillRequests_changes _) (by decide) (by decide)

theorem State.answerSent_changes (s : State) : ChangesOnly [.answers] s s.answerSent := by
  intro p hp; cases p <;> first | rfl | exact absurd (by decide) hp

theorem State.frameSent_changes (s : State) : ChangesOnly frameParts s s.frameSent := by
  unfold State.frameSent
  split
  · exact .refl _ _
  · split
    · dsimp only
      split
      · exact (s.stopDriving_changes _).comp (State.answerSent_changes _) (by decide) (by decide)
      · exact (s.stopDriving_changes _).comp (State.requestSent_changes _ _) (by decide) (by decide)
    · exact .refl _ _

theorem State.beaconTime_changes (s : State) : ChangesOnly [.requests, .draws, .beacons] s s.beaconTime := by
  unfold State.beaconTime
  split
  · exact .ite (s.beaconDue_changes _) (.refl _ _)
  · exact .refl _ _

theorem State.sendFailedExpiry_changes (s : State) : ChangesOnly [.sendFailed] s s.sendFailedExpiry := by
  intro p hp; cases p <;> first | rfl | exact absurd (by decide) hp

theorem State.answerDroppedExpiry_changes (s : State) : ChangesOnly [.answerDropped] s s.answerDroppedExpiry := by
  intro p hp; cases p <;> first | rfl | exact absurd (by decide) hp

theorem State.noiseExpiry_changes (s : State) : ChangesOnly [.badFrames] s s.noiseExpiry := by
  intro p hp; cases p <;> first | rfl | exact absurd (by decide) hp

theorem State.peerAbsent_changes (s : State) (q : Nat) : ChangesOnly [.peers] s (s.peerAbsent q) :=
  s.modPeer_changes _ _

/-! ### Reception (Reception.lean) -/

/-- The parts that a frame from the line may touch. -/
def rxParts : List Part :=
  [.answers, .answerDropped, .cards, .holds, .trail, .clash] ++ sealParts ++ answerParts ++ withdrawParts

theorem State.onAsk_changes (s : State) (st : Settings) (h : Header) (home serial asked least : Nat) :
    ChangesOnly rxParts s (s.onAsk st h home serial asked least) :=
  (s.serveAsk_changes _ _ _ _ _ _ _).comp (State.answerTo_changes _ _ _ _) (by decide) (by decide)

theorem State.onTake_changes (s : State) (st : Settings) (h : Header) (i n x : Nat) :
    ChangesOnly rxParts s (s.onTake st h i n x) :=
  (s.serveTake_changes _ _ _ _ _ _).comp (State.answerTo_changes _ _ _ _) (by decide) (by decide)

theorem State.onFree_changes (s : State) (st : Settings) (h : Header) (i n : Nat) :
    ChangesOnly rxParts s (s.onFree st h i n) :=
  (s.freeHold_changes _ _ _ _).comp (State.answerTo_changes _ _ _ _) (by decide) (by decide)

theorem State.onCredit_changes (s : State) (st : Settings) (h : Header) (n k f : Nat) :
    ChangesOnly rxParts s (s.onCredit st h n k f) :=
  (s.serveCredit_changes _ _ _ _ _ _).comp (State.answerTo_changes _ _ _ _) (by decide) (by decide)

theorem State.onTally_changes (s : State) (h : Header) (y : Tally) :
    ChangesOnly [.peers, .saturation] s (s.onTally h y) :=
  (s.modPeer_changes _ _).comp (State.raiseSat_changes _ _) (by decide) (by decide)

theorem State.onCheck_changes (s : State) (h : Header) : ChangesOnly fillParts s (s.onCheck h) := by
  unfold State.onCheck; exact .ite (.refl _ _) (s.setTallyWanted_changes _)

theorem State.onBeacon_changes (s : State) (h : Header) : ChangesOnly fillParts s (s.onBeacon h) :=
  (s.askOwed_changes _).trans (State.wantResends_changes _ _)

theorem State.handOver_changes (s : State) (st : Settings) (h : Header) (b : Body) :
    ChangesOnly rxParts s (s.handOver st h b) := by
  unfold State.handOver
  split
  · exact s.onAsk_changes _ _ _ _ _ _
  · exact s.onTake_changes _ _ _ _ _
  · exact s.onFree_changes _ _ _ _
  · exact s.onCredit_changes _ _ _ _ _
  · exact (s.onTally_changes _ _).mono (by decide)
  · exact (s.onCheck_changes _).mono (by decide)
  · exact (s.onBeacon_changes _).mono (by decide)
  all_goals exact (s.serveAnswer_changes _ _ _).mono (by decide)

theorem State.onMalformed_changes (s : State) (h : Header) (k : Nat) : ChangesOnly rxParts s (s.onMalformed h k) := by
  unfold State.onMalformed
  exact .ite ((s.protocolFault_changes _).comp (State.answerTo_changes _ _ _ _) (by decide) (by decide))
    ((s.protocolFault_changes _).mono (by decide))

theorem State.readBody_changes (s : State) (st : Settings) (h : Header) (x : RxBody) :
    ChangesOnly rxParts s (s.readBody st h x) := by
  unfold State.readBody
  split
  · exact s.handOver_changes _ _ _
  · exact s.onMalformed_changes _ _

theorem State.onHeader_changes (s : State) (st : Settings) (h : Header) : ChangesOnly rxParts s (s.onHeader st h) :=
  ((s.hearPeer_changes h).comp (State.catchUpCheck_changes _ _ _) (rs := rxParts) (by decide) (by decide)).trans
    ((relatch_changes _).mono (by decide))

theorem State.onReadable_changes (s : State) (st : Settings) (h : Header) (x : RxBody) :
    ChangesOnly rxParts s (s.onReadable st h x) := by
  unfold State.onReadable
  split
  · exact s.clashFound_changes.mono (by decide)
  · refine ChangesOnly.trans (t := s.onHeader st h) (s.onHeader_changes _ _) ?_
    dsimp only
    exact .ite ((State.readBody_changes _ _ _ _).trans ((State.drainTest_changes _).mono (by decide)))
      ((State.drainTest_changes _).mono (by decide))

theorem State.hearGood_changes (s : State) (h : RxHeader) (x : RxBody) : ChangesOnly rxParts s (s.hearGood h x) := by
  unfold State.hearGood whenEnrolled
  split
  · split
    · split
      · exact s.onReadable_changes _ _ _
      · exact .refl _ _
    · exact .refl _ _
  · exact .refl _ _

theorem State.hearKind_changes (s : State) (h : RxHeader) (b : RawBody) : ChangesOnly rxParts s (s.hearKind h b) :=
  s.hearGood_changes _ _

theorem State.hearFrame_changes (s : State) (f : RxFrame) : ChangesOnly rxParts s (s.hearFrame f) :=
  s.hearGood_changes _ _

theorem State.hearBits_changes (s : State) (bs : List Bool) : ChangesOnly rxParts s (s.hearBits bs) := by
  unfold State.hearBits
  split
  · exact s.hearFrame_changes _
  · exact .refl _ _
  · exact .ite (s.countBad_changes.mono (by decide)) (.refl _ _)
  · exact .ite (s.countBad_changes.mono (by decide)) (.refl _ _)

/-! ### The shape of a step -/

/-- What a step of a powered part changes: what its operation changes, the clock, and the parts settled at the end. -/
theorem event_changes {ps : List Part} (t : Moment) (f : State → State) (s : State)
    (h : ChangesOnly ps (s.atMoment t) (f (s.atMoment t))) :
    ∃ u, event t f s = .next u ∧ ChangesOnly (.now :: settled ++ ps) s u := by
  refine ⟨_, rfl, ?_⟩
  have h0 := (s.atMoment_changes t).mono (qs := .now :: settled ++ ps) (by intro p hp; simp_all)
  have hf : ∀ p ∈ settled, p ∈ .now :: settled ++ ps := fun p hp => List.mem_cons_of_mem _ (List.mem_append_left _ hp)
  split
  · exact (h0.trans (h.mono (by intro p hp; simp_all))).trans ((finish_changes _).mono hf)
  · exact h0.trans ((finish_changes _).mono hf)

end Sys2Proof.Machine
end

