-- ==== Sys2Proof/Laws/Steps.lean ====
section
/-! SUPPORT. The shape of a step, once: what a till command, a frame and an event come to on a powered part. -/

namespace Sys2Proof.Machine

/-- The state byte of an IDLE port is 00 (R179). -/
theorem State.stateByte_idle (s : State) (h : s.tp.state = .idle) : s.stateByte = 0x00#8 := by
  simp [State.stateByte, h, PortState.code]

/-- A till command taken in IDLE runs from the state it has begun in, and its response is placed (R179). -/
theorem till_next {s : State} {st : Settings} (h : tillReady s st) (t : Moment) (token : Token) (run : Effect) :
    event t (State.write token run) s =
      .next (finish (answered (run (begun s t)).1 token (run (begun s t)).2.status (run (begun s t)).2.values)) := by
  obtain ⟨hp, _, hi⟩ := h
  have hb : (s.atMoment t).shiftOut [(s.atMoment t).stateByte] = begun s t := by
    rw [State.stateByte_idle (s.atMoment t) hi]; rfl
  have hi' : (begun s t).tp.state = .idle := hi
  simp only [event, hp, if_true, State.write, hb, hi']
  rfl

/-- A command of an enrolled part reaches its block (R180 test 1). -/
theorem enrolled_some {s : State} {st : Settings} (h : s.tp.settings = some st) (f : Settings → Effect) :
    enrolled f s = f st s := by
  simp [enrolled, h]

theorem whenEnrolled_some {s : State} {st : Settings} (h : s.tp.settings = some st) (f : Settings → State) :
    whenEnrolled s f = f st := by
  simp [whenEnrolled, h]

/-- An event of a powered part (R190). -/
theorem event_powered {s : State} (h : s.power = true) (t : Moment) (f : State → State) :
    event t f s = .next (finish (f (s.atMoment t))) := by
  simp [event, h]

/-- A part without main power only keeps time (R190). -/
theorem event_unpowered {s : State} (h : s.power = false) (t : Moment) (f : State → State) :
    event t f s = .next (finish (s.atMoment t)) := by
  simp [event, h]

/-! ### Frames that are heard -/

/-- A station on the line that does not drive it receives (R85, R87). -/
theorem Link.receives_of_onLine {l : Link} (h : l.onLine = true) (h2 : l.isDriving = false) : l.receives = true := by
  simp [Link.receives, h, h2]

/-- The header tests change neither the station state, the settings nor the power (R86). -/
theorem heardFrom_changes (s : State) (st : Settings) (t : Moment) (g : Header) :
    ChangesOnly (.peers :: fillParts ++ (.latched :: sealParts)) (s.atMoment t) (heardFrom s st t g) :=
  ((State.hearPeer_changes _ g).mono (by decide)).trans
    (((State.catchUpCheck_changes _ st g.cycle).mono (by decide)).trans ((relatch_changes _).mono (by decide)))

/-- A frame from another station, to all or to this one, has its body read in the state `heardFrom` (R86). -/
theorem hearGood_next {s : State} {st : Settings} {h : RxHeader} {g : Header} (hl : lineReady s st)
    (hf : fromPeer st h g) (t : Moment) (x : RxBody) (hd : g.dest = 0 ∨ g.dest = st.station) :
    event t (fun s => s.hearGood h x) s = .next (finish ((heardFrom s st t g).readBody st g x).drainTest) := by
  obtain ⟨hp, hs, ho, hn⟩ := hl
  have hst : (heardFrom s st t g).lc.station = s.lc.station := heardFrom_changes s st t g .station (by decide)
  have hon : ((s.atMoment t).onHeader st g).lc.onLine = true := by
    show (heardFrom s st t g).lc.onLine = true
    simpa only [Link.onLine, hst] using ho
  rw [event_powered hp, State.hearGood, whenEnrolled_some (s := s.atMoment t) hs,
    if_pos (show (s.atMoment t).lc.receives = true from Link.receives_of_onLine ho hn)]
  simp only [hf.1, State.onReadable, hf.2, if_false]
  rw [if_pos]
  · rfl
  · rcases hd with hd | hd <;> simp [hon, hd]

/-- A frame whose destination and tag fit its kind and whose fields are right is handed over (R87, R88). -/
theorem hearKind_next {s : State} {st : Settings} {h : RxHeader} {g : Header} (hl : lineReady s st)
    (hf : fromPeer st h g) (t : Moment) {raw : RawBody} {b : Body} (hr : raw.read = some b)
    (hd : g.dest = 0 ∨ g.dest = st.station) (h1 : destinationFits raw.kind g.dest = true)
    (h2 : tagFits raw.kind g.tag = true) :
    event t (fun s => s.hearKind h raw) s = .next (finish ((heardFrom s st t g).handOver st g b).drainTest) := by
  rw [show (fun s : State => s.hearKind h raw) = fun s => s.hearGood h ⟨raw.kind, some raw⟩ from rfl,
    hearGood_next hl hf t _ hd]
  simp [State.readBody, RxBody.fit, h1, h2, hr]

/-- The same for a request or an answer addressed to this station. -/
theorem hearKind_addressed {s : State} {st : Settings} {h : RxHeader} {g : Header} (hl : lineReady s st)
    (hf : addressed st h g) (t : Moment) {raw : RawBody} {b : Body} (hr : raw.read = some b)
    (h1 : raw.kind ≠ kindBeacon) (h2 : raw.kind ≠ kindTally) (h3 : raw.kind ≠ kindCheck) :
    event t (fun s => s.hearKind h raw) s = .next (finish ((heardFrom s st t g).handOver st g b).drainTest) := by
  obtain ⟨hp, hd, h0, ht⟩ := hf
  refine hearKind_next hl hp t hr (.inr hd) ?_ ?_
  · simp [destinationFits, h1, hd, h0]
  · simp [tagFits, h1, h2, h3, ht]

/-- Every command answers a state that has been settled. -/
theorem exec_settled (i : Instr) (s : State) : ∃ u, exec i s = .next (finish u) := by
  cases i <;> exact ⟨_, rfl⟩

/-- What a command does to a powered part at its moment, but for power-ups and the loss of the retention mark. -/
def work : Instr → State → State
  | .enrol _ token settings => State.write token (cmdEnrol settings)
  | .join _ token => State.write token cmdJoin
  | .drain _ token => State.write token cmdDrain
  | .leave _ token => State.write token cmdLeave
  | .issue _ token amount validity => State.write token (cmdIssue amount validity)
  | .load _ token ref amount => State.write token (cmdLoad ref amount)
  | .cashout _ token ref => State.write token (cmdCashout ref)
  | .freeze _ token ref => State.write token (cmdFreeze ref)
  | .thaw _ token ref => State.write token (cmdThaw ref)
  | .enquire _ token ref => State.write token (cmdEnquire ref token)
  | .authorize _ token ref asked least => State.write token (cmdAuthorize ref asked least token)
  | .capture _ token ref holdId amount => State.write token (cmdCapture ref holdId amount token)
  | .void _ token ref holdId => State.write token (cmdVoid ref holdId token)
  | .refund _ token ref trail amount => State.write token (cmdRefund ref trail amount token)
  | .closeDay _ token => State.write token cmdCloseDay
  | .report _ token => State.write token cmdReport
  | .setRate _ token rate fee effective => State.write token (cmdSetRate rate fee effective)
  | .readStatement _ token => State.write token cmdReadStatement
  | .readResult _ token => State.write token cmdReadResult
  | .peerStatus _ token peer => State.write token (cmdPeerStatus peer)
  | .clearPeer _ token peer => State.write token (cmdClearPeer peer)
  | .adjust _ token peer dR dL => State.write token (cmdAdjust peer dR dL)
  | .status _ token => State.write token cmdStatus
  | .clearMonitor _ token selection => State.write token (cmdClearMonitor selection)
  | .restart _ token => State.write token cmdRestart
  | .wipe _ token => State.write token cmdWipe
  | .malformedBlock _ mosi => fun s => s.transfer mosi
  | .writeRefusedBusy _ mosi => fun s => s.transfer mosi
  | .responseRead _ mosi => fun s => s.transfer mosi
  | .askReceived _ h ref asked least => fun s => s.hearKind h (.ask ref asked least)
  | .takeReceived _ h holdId serial amount => fun s => s.hearKind h (.take holdId serial amount)
  | .freeReceived _ h holdId serial => fun s => s.hearKind h (.free holdId serial)
  | .creditReceived _ h serial trail amount => fun s => s.hearKind h (.credit serial trail amount)
  | .grantReceived _ h holdId granted residual available balance expiry =>
    fun s => s.hearKind h (.grant holdId granted residual available balance expiry)
  | .takenReceived _ h trail captured released booking balance =>
    fun s => s.hearKind h (.taken trail captured released booking balance)
  | .freedReceived _ h released balance available => fun s => s.hearKind h (.freed released balance available)
  | .creditedReceived _ h trail amount remaining booking balance =>
    fun s => s.hearKind h (.credited trail amount remaining booking balance)
  | .refuseReceived _ h refusedKind reason value => fun s => s.hearKind h (.refuse refusedKind reason value)
  | .tallyReceived _ h cycle lifeRs lifeLs marks => fun s => s.hearKind h (.tally cycle lifeRs lifeLs marks)
  | .checkReceived _ h => fun s => s.hearKind h .check
  | .beaconReceived _ h => fun s => s.hearKind h .beacon
  | .frameClash _ f => fun s => s.hearFrame f
  | .malformedFrame _ f => fun s => s.hearFrame f
  | .unreadableHeader _ f => fun s => s.hearFrame f
  | .headerOnlyFrame _ f => fun s => s.hearFrame f
  | .badFrame _ heard => fun s => s.hearBits heard
  | .fragment _ heard => fun s => s.hearBits heard
  | .lineIdle _ => State.lineIdle
  | .lineBusy _ => State.lineBusy
  | .answerStart _ => State.startAnswer
  | .requestStart _ => fun s => whenEnrolled s s.startRequest
  | .spacingExpiry _ => fun s => whenEnrolled s s.spacingExpiry
  | .collision _ => fun s => s.collide.drainTest
  | .frameSent _ => fun s => s.frameSent.drainTest
  | .requestQueueFill _ => State.fillRequests
  | .beaconTime _ => State.beaconTime
  | .listenEnd _ => State.listenOver
  | .sendFailedExpiry _ => State.sendFailedExpiry
  | .answerDroppedExpiry _ => State.answerDroppedExpiry
  | .linkNoiseExpiry _ => State.noiseExpiry
  | .drainComplete _ => State.drainTest
  | .replyTimeout _ tag => fun s => (s.replyTimeout tag.toNat).drainTest
  | .resultQueueFill _ => State.fillResults
  | .pendingClose _ => fun s => whenEnrolled s s.pendingClose
  | .sweepStep _ => fun s => whenEnrolled s s.sweepStep
  | .sealWindowExpiry _ => fun s => whenEnrolled s s.windowExpiry
  | .makeSeal _ => fun s => whenEnrolled s s.sealDue
  | .deferredSealCompletion _ => fun s => whenEnrolled s s.completeDeferred
  | .holdDeadline _ holdId => fun s => (whenEnrolled s fun st => s.holdDeadline st holdId.toNat).drainTest
  | .peerAbsentTimeout _ peer => fun s => s.peerAbsent peer.toNat
  | .coldStart _ => id
  | .warmStart _ => id
  | .nrst _ low => fun s => s.resetPin low
  | .powerLoss _ => State.powerDown
  | .retentionLoss _ => id

/-- Every command but a power-up and the loss of the retention mark is an event of a powered part. -/
theorem exec_event (i : Instr) (s : State) (h1 : ∀ t, i ≠ .coldStart t) (h2 : ∀ t, i ≠ .warmStart t)
    (h3 : ∀ t, i ≠ .retentionLoss t) : exec i s = event i.moment (work i) s := by
  cases i <;> first
    | exact absurd rfl (h1 _)
    | exact absurd rfl (h2 _)
    | exact absurd rfl (h3 _)
    | rfl

end Sys2Proof.Machine
end

