-- ==== Sys2Proof/Laws/Commands.lean ====
section
/-! SUPPORT. What each till command, transfer and start can change. -/

namespace Sys2Proof.Machine

/-! ### The tests every command meets -/

theorem enrolled_changes {ps : List Part} (f : Settings → Effect) (s : State)
    (h : ∀ st, ChangesOnly ps s (f st s).1) : ChangesOnly ps s (enrolled f s).1 := by
  unfold enrolled
  split
  · exact .refl _ _
  · exact h _

theorem withRef_changes {ps : List Part} (r : RefField) (f : CardRef → Effect) (s : State)
    (h : ∀ c, ChangesOnly ps s (f c s).1) : ChangesOnly ps s (withRef r f s).1 := by
  unfold withRef
  split
  · exact .refl _ _
  · exact h _

theorem withAmount_changes {ps : List Part} (a : AmountField) (f : Nat → Effect) (s : State)
    (h : ∀ n, ChangesOnly ps s (f n s).1) : ChangesOnly ps s (withAmount a f s).1 := by
  unfold withAmount
  split
  · exact .refl _ _
  · exact h _

theorem withCycle_changes {ps : List Part} (c : CycleField) (f : Nat → Effect) (s : State)
    (h : ∀ n, ChangesOnly ps s (f n s).1) : ChangesOnly ps s (withCycle c f s).1 := by
  unfold withCycle
  split
  · exact .refl _ _
  · exact h _

theorem withTrail_changes {ps : List Part} (c : Digits8Field) (f : Nat → Effect) (s : State)
    (h : ∀ n, ChangesOnly ps s (f n s).1) : ChangesOnly ps s (withTrail c f s).1 := by
  unfold withTrail
  split
  · exact .refl _ _
  · exact h _

theorem withPeer_changes {ps : List Part} (q : BitVec 8) (f : Settings → Nat → Effect) (s : State)
    (h : ∀ st n, ChangesOnly ps s (f st n s).1) : ChangesOnly ps s (withPeer q f s).1 := by
  refine enrolled_changes _ s fun st => ?_
  split
  · exact .refl _ _
  · exact h _ _

theorem ownCard_changes {ps : List Part} (r : RefField) (f : Settings → Nat → Effect) (s : State)
    (h : ∀ st n, ChangesOnly ps s (f st n s).1) : ChangesOnly ps s (ownCard r f s).1 := by
  refine enrolled_changes _ s fun st => withRef_changes _ _ s fun c => ?_
  split
  · exact h _ _
  · exact .refl _ _

/-! ### The commands -/

theorem cmdEnrol_changes (f : EnrolFields) (s : State) :
    ChangesOnly [.settings, .cycles, .enables] s (cmdEnrol f s).1 := by
  unfold cmdEnrol
  split
  · exact .refl _ _
  · split
    · exact .refl _ _
    · intro p hp; cases p <;> first | rfl | exact absurd (by decide) hp

theorem cmdJoin_changes (s : State) : ChangesOnly [.station, .listen, .clash] s (cmdJoin s).1 :=
  enrolled_changes _ s fun _ => s.join_changes

theorem cmdDrain_changes (s : State) : ChangesOnly withdrawParts s (cmdDrain s).1 :=
  enrolled_changes _ s fun _ => s.drain_changes

theorem cmdLeave_changes (s : State) : ChangesOnly withdrawParts s (cmdLeave s).1 :=
  enrolled_changes _ s fun _ => s.leave_changes

theorem cmdIssue_changes (a : AmountField) (v : CycleField) (s : State) :
    ChangesOnly (.serials :: lapseParts) s (cmdIssue a v s).1 :=
  withCycle_changes _ _ s fun _ => enrolled_changes _ s fun _ => withAmount_changes _ _ s fun _ => s.issue_changes _ _ _

theorem cmdLoad_changes (r : RefField) (a : AmountField) (s : State) :
    ChangesOnly lapseParts s (cmdLoad r a s).1 := by
  refine enrolled_changes _ s fun _ => withRef_changes _ _ s fun _ => withAmount_changes _ _ s fun _ => ?_
  split
  · exact s.load_changes _ _ _
  · exact .refl _ _

theorem cmdCashout_changes (r : RefField) (s : State) : ChangesOnly lapseParts s (cmdCashout r s).1 :=
  ownCard_changes _ _ s fun _ _ => s.cashout_changes _

theorem cmdFreeze_changes (r : RefField) (s : State) : ChangesOnly lapseParts s (cmdFreeze r s).1 :=
  ownCard_changes _ _ s fun _ _ => s.setFrozen_changes _ _

theorem cmdThaw_changes (r : RefField) (s : State) : ChangesOnly lapseParts s (cmdThaw r s).1 :=
  ownCard_changes _ _ s fun _ _ => s.setFrozen_changes _ _

theorem cmdEnquire_changes (r : RefField) (token : Token) (s : State) :
    ChangesOnly (lapseParts ++ fillParts) s (cmdEnquire r token s).1 := by
  refine enrolled_changes _ s fun _ => withRef_changes _ _ s fun _ => ?_
  split
  · exact (s.enquireOwn_changes _).mono (by decide)
  · exact (s.openExchange_changes _ _ _ _).mono (by decide)

theorem cmdAuthorize_changes (r : RefField) (a l : AmountField) (token : Token) (s : State) :
    ChangesOnly (holdParts ++ fillParts) s (cmdAuthorize r a l token s).1 := by
  refine enrolled_changes _ s fun _ => withRef_changes _ _ s fun _ => withAmount_changes _ _ s fun _ =>
    withAmount_changes _ _ s fun _ => ?_
  split; · exact .refl _ _
  split
  · exact (s.authorizeOwn_changes _ _ _ _).mono (by decide)
  · exact (s.openExchange_changes _ _ _ _).mono (by decide)

theorem cmdCapture_changes (r : RefField) (i : Num2Field) (a : AmountField) (token : Token) (s : State) :
    ChangesOnly (holdParts ++ fillParts) s (cmdCapture r i a token s).1 := by
  refine enrolled_changes _ s fun _ => withRef_changes _ _ s fun _ => withAmount_changes _ _ s fun _ => ?_
  split
  · exact (s.captureOwn_changes _ _ _ _).mono (by decide)
  · exact (s.openExchange_changes _ _ _ _).mono (by decide)

theorem cmdVoid_changes (r : RefField) (i : Num2Field) (token : Token) (s : State) :
    ChangesOnly (holdParts ++ fillParts) s (cmdVoid r i token s).1 := by
  refine enrolled_changes _ s fun _ => withRef_changes _ _ s fun _ => ?_
  split
  · exact (s.freeHold_changes _ _ _ _).mono (by decide)
  · exact (s.openExchange_changes _ _ _ _).mono (by decide)

theorem cmdRefund_changes (r : RefField) (n : Digits8Field) (a : AmountField) (token : Token) (s : State) :
    ChangesOnly (holdParts ++ fillParts) s (cmdRefund r n a token s).1 := by
  refine withTrail_changes _ _ s fun _ => enrolled_changes _ s fun _ => withRef_changes _ _ s fun _ =>
    withAmount_changes _ _ s fun _ => ?_
  split
  · exact (s.refundOwn_changes _ _ _ _).mono (by decide)
  · exact (s.openExchange_changes _ _ _ _).mono (by decide)

theorem cmdCloseDay_changes (s : State) : ChangesOnly sealParts s (cmdCloseDay s).1 :=
  enrolled_changes _ s fun _ => s.closeDay_changes _

theorem cmdReport_changes (s : State) : ChangesOnly [.statements, .saturation] s (cmdReport s).1 :=
  enrolled_changes _ s fun _ => s.report_changes _

theorem cmdSetRate_changes (r : BitVec 16) (f : BitVec 8) (e : CycleField) (s : State) :
    ChangesOnly [.cycles] s (cmdSetRate r f e s).1 :=
  withCycle_changes _ _ s fun _ => enrolled_changes _ s fun _ => s.setRate_changes _ _ _

theorem cmdReadStatement_changes (s : State) : ChangesOnly sealParts s (cmdReadStatement s).1 :=
  enrolled_changes _ s fun _ => s.readStatement_changes _

theorem cmdReadResult_changes (s : State) : ChangesOnly resultParts s (cmdReadResult s).1 := by
  refine enrolled_changes _ s fun _ => ?_
  unfold State.readResult
  split
  · exact .refl _ _
  · refine ChangesOnly.trans ?_ (State.fillResults_changes _)
    intro p hp; cases p <;> first | rfl | exact absurd (by decide) hp

theorem cmdPeerStatus_changes (q : BitVec 8) (s : State) : ChangesOnly [] s (cmdPeerStatus q s).1 :=
  withPeer_changes _ _ s fun _ _ => .refl _ _

theorem cmdClearPeer_changes (q : BitVec 8) (s : State) :
    ChangesOnly (.peers :: fillParts) s (cmdClearPeer q s).1 := by
  refine withPeer_changes _ _ s fun _ _ => ?_
  unfold State.clearPeer
  split
  · exact (s.modPeer_changes _ _).comp (State.askCheck_changes _ _) (by decide) (by decide)
  · exact (s.modPeer_changes _ _).comp (State.askCheck_changes _ _) (by decide) (by decide)
  · exact .refl _ _

theorem cmdAdjust_changes (q : BitVec 8) (r l : AmountField) (s : State) :
    ChangesOnly [.peers, .saturation] s (cmdAdjust q r l s).1 := by
  refine withPeer_changes _ _ s fun _ _ => ?_
  split
  · exact (s.modPeer_changes _ _).comp (State.raiseSat_changes _ _) (by decide) (by decide)
  · exact .refl _ _

theorem cmdStatus_changes (s : State) : ChangesOnly [] s (cmdStatus s).1 := .refl _ _

theorem cmdClearMonitor_changes (x : BitVec 16) (s : State) : ChangesOnly [.latched] s (cmdClearMonitor x s).1 := by
  refine enrolled_changes _ s fun _ => ?_
  intro p hp; cases p <;> first | rfl | exact absurd (by decide) hp

/-! ### Starts -/

/-- The parts that a warm start may touch: none of the cards, the money, the trail, the enrolment. -/
def warmParts : List Part :=
  [.port, .results, .holds, .exchanges, .place, .station, .answers, .requests, .transmitter, .beacons, .wanted, .listen,
   .heldLink, .badFrames, .sendFailed, .answerDropped, .clash, .peers, .cycles, .statements, .latched, .saturation]

theorem State.warmBlocks_changes (s : State) : ChangesOnly warmParts s s.warmBlocks := by
  intro p hp; cases p <;> first | rfl | exact absurd (by decide) hp

theorem State.warmStart_changes (s : State) : ChangesOnly warmParts s s.warmStart := by
  unfold State.warmStart
  dsimp only
  split
  · exact s.warmBlocks_changes
  · refine ChangesOnly.trans (t := State.fillResults _) ?_ ((State.formExposures_changes _ _).mono (by decide))
    refine ChangesOnly.trans (t := State.setAsideAll _) ?_ ((State.fillResults_changes _).mono (by decide))
    refine ChangesOnly.trans ?_ ((State.setAsideAll_changes _).mono (by decide))
    intro p hp; cases p <;> first | rfl | exact absurd (by decide) hp

/-- The parts that any command may touch: all but the clock and the queue. -/
def allButClock : List Part :=
  [.draws, .place, .power, .retention, .attn, .lde, .ltx, .miso, .port, .results, .settings, .cards, .serials, .money, .cursor,
   .holds, .trail, .exchanges, .station, .answers, .requests, .transmitter, .beacons, .wanted, .listen, .heldLink,
   .badFrames, .sendFailed, .answerDropped, .clash, .peers, .cycles, .statements, .enables, .latched, .saturation]

theorem State.coldStart_changes (s : State) : ChangesOnly allButClock s s.coldStart := by
  intro p hp; cases p <;> first | rfl | exact absurd (by decide) hp

theorem State.powerUp_changes (s : State) : ChangesOnly allButClock s s.powerUp := by
  unfold State.powerUp
  refine ChangesOnly.trans (t := { s with power := true }) ?_ ?_
  · intro p hp; cases p <;> first | rfl | exact absurd (by decide) hp
  · dsimp only
    exact .ite ((State.warmStart_changes _).mono (by decide)) (State.coldStart_changes _)

theorem State.powerDown_changes (s : State) : ChangesOnly [.power, .transmitter] s s.powerDown := by
  intro p hp; cases p <;> first | rfl | exact absurd (by decide) hp

theorem State.loseRetention_changes (s : State) :
    ChangesOnly [.power, .transmitter, .retention] s s.loseRetention := by
  intro p hp; cases p <;> first | rfl | exact absurd (by decide) hp

theorem State.resetPin_changes (s : State) (low : Moment) : ChangesOnly warmParts s (s.resetPin low) := by
  unfold State.resetPin; exact .ite s.warmStart_changes (.refl _ _)

theorem cmdRestart_changes (s : State) : ChangesOnly warmParts s (cmdRestart s).1 := s.warmStart_changes

theorem cmdWipe_changes (s : State) : ChangesOnly allButClock s (cmdWipe s).1 := by
  unfold cmdWipe State.wipe
  split
  · exact .refl _ _
  · exact s.coldStart_changes

/-! ### Transfers -/

theorem State.write_changes {ps : List Part} (token : Token) (run : Effect) (s : State)
    (h : ∀ s, ChangesOnly ps s (run s).1) : ChangesOnly (.miso :: .port :: ps) s (State.write token run s) := by
  unfold State.write
  have h0 := (s.shiftOut_changes [s.stateByte]).mono (qs := .miso :: .port :: ps) (by intro p hp; simp_all)
  dsimp only
  split
  · exact (h0.trans ((h _).mono (by intro p hp; simp_all))).trans
      ((State.respond_changes _ _ _).mono (by intro p hp; simp_all))
  · exact h0.trans ((State.countBusy_changes _).mono (by intro p hp; simp_all))

theorem runCommand_changes (token : Token) (c : Command) (s : State) :
    ChangesOnly allButClock s (runCommand token c s).1 := by
  cases c
  · exact (cmdEnrol_changes _ s).mono (by decide)
  · exact (cmdJoin_changes s).mono (by decide)
  · exact (cmdDrain_changes s).mono (by decide)
  · exact (cmdLeave_changes s).mono (by decide)
  · exact (cmdIssue_changes _ _ s).mono (by decide)
  · exact (cmdLoad_changes _ _ s).mono (by decide)
  · exact (cmdCashout_changes _ s).mono (by decide)
  · exact (cmdFreeze_changes _ s).mono (by decide)
  · exact (cmdThaw_changes _ s).mono (by decide)
  · exact (cmdEnquire_changes _ _ s).mono (by decide)
  · exact (cmdAuthorize_changes _ _ _ _ s).mono (by decide)
  · exact (cmdCapture_changes _ _ _ _ s).mono (by decide)
  · exact (cmdVoid_changes _ _ _ s).mono (by decide)
  · exact (cmdRefund_changes _ _ _ _ s).mono (by decide)
  · exact (cmdCloseDay_changes s).mono (by decide)
  · exact (cmdReport_changes s).mono (by decide)
  · exact (cmdSetRate_changes _ _ _ s).mono (by decide)
  · exact (cmdReadStatement_changes s).mono (by decide)
  · exact (cmdReadResult_changes s).mono (by decide)
  · exact (cmdPeerStatus_changes _ s).mono (by decide)
  · exact (cmdClearPeer_changes _ s).mono (by decide)
  · exact (cmdAdjust_changes _ _ _ s).mono (by decide)
  · exact (cmdStatus_changes s).mono (by decide)
  · exact (cmdClearMonitor_changes _ s).mono (by decide)
  · exact (cmdRestart_changes s).mono (by decide)
  · exact cmdWipe_changes s

theorem runBlock_changes (block : List Byte) (s : State) : ChangesOnly allButClock s (runBlock block s).1 := by
  cases h : parseBlock block with
  | some c => simpa only [runBlock, h] using runCommand_changes _ c s
  | none => simpa only [runBlock, h] using ChangesOnly.refl _ s

theorem State.read_changes (s : State) (n : Nat) : ChangesOnly [.miso, .port] s (s.read n) := by
  unfold State.read
  split
  · dsimp only
    split <;> (intro p hp; cases p <;> first | rfl | exact absurd (by decide) hp)
  · exact (s.shiftOut_changes _).mono (by decide)

theorem State.transfer_changes (s : State) (mosi : List Byte) : ChangesOnly allButClock s (s.transfer mosi) := by
  unfold State.transfer
  split
  · exact (s.shiftOut_changes _).mono (by decide)
  · split
    · exact (State.write_changes _ _ s (runBlock_changes _)).mono (by decide)
    · split
      · exact (s.read_changes _).mono (by decide)
      · exact (s.shiftOut_changes _).mono (by decide)

/-! ### Every command -/

theorem write_command_changes {ps : List Part} (token : Token) (run : Effect) (s : State)
    (h : ∀ s, ChangesOnly ps s (run s).1) (hs : ∀ p ∈ ps, p ∈ allButClock) :
    ChangesOnly allButClock s (State.write token run s) := by
  refine (State.write_changes token run s h).mono fun p hp => ?_
  simp only [List.mem_cons] at hp
  rcases hp with rfl | rfl | hp
  · decide
  · decide
  · exact hs p hp

theorem whenEnrolled_changes {ps : List Part} (s : State) (f : Settings → State) (h : ∀ st, ChangesOnly ps s (f st)) :
    ChangesOnly ps s (whenEnrolled s f) := by
  unfold whenEnrolled
  split
  · exact h _
  · exact .refl _ _

/-- What a command does at its moment touches neither the clock nor the queue. -/
theorem work_changes (i : Instr) (s : State) : ChangesOnly allButClock s (work i s) := by
  cases i
  · exact write_command_changes _ _ s (fun s => cmdEnrol_changes _ s) (by decide)
  · exact write_command_changes _ _ s (fun s => cmdJoin_changes s) (by decide)
  · exact write_command_changes _ _ s (fun s => cmdDrain_changes s) (by decide)
  · exact write_command_changes _ _ s (fun s => cmdLeave_changes s) (by decide)
  · exact write_command_changes _ _ s (fun s => cmdIssue_changes _ _ s) (by decide)
  · exact write_command_changes _ _ s (fun s => cmdLoad_changes _ _ s) (by decide)
  · exact write_command_changes _ _ s (fun s => cmdCashout_changes _ s) (by decide)
  · exact write_command_changes _ _ s (fun s => cmdFreeze_changes _ s) (by decide)
  · exact write_command_changes _ _ s (fun s => cmdThaw_changes _ s) (by decide)
  · exact write_command_changes _ _ s (fun s => cmdEnquire_changes _ _ s) (by decide)
  · exact write_command_changes _ _ s (fun s => cmdAuthorize_changes _ _ _ _ s) (by decide)
  · exact write_command_changes _ _ s (fun s => cmdCapture_changes _ _ _ _ s) (by decide)
  · exact write_command_changes _ _ s (fun s => cmdVoid_changes _ _ _ s) (by decide)
  · exact write_command_changes _ _ s (fun s => cmdRefund_changes _ _ _ _ s) (by decide)
  · exact write_command_changes _ _ s (fun s => cmdCloseDay_changes s) (by decide)
  · exact write_command_changes _ _ s (fun s => cmdReport_changes s) (by decide)
  · exact write_command_changes _ _ s (fun s => cmdSetRate_changes _ _ _ s) (by decide)
  · exact write_command_changes _ _ s (fun s => cmdReadStatement_changes s) (by decide)
  · exact write_command_changes _ _ s (fun s => cmdReadResult_changes s) (by decide)
  · exact write_command_changes _ _ s (fun s => cmdPeerStatus_changes _ s) (by decide)
  · exact write_command_changes _ _ s (fun s => cmdClearPeer_changes _ s) (by decide)
  · exact write_command_changes _ _ s (fun s => cmdAdjust_changes _ _ _ s) (by decide)
  · exact write_command_changes _ _ s (fun s => cmdStatus_changes s) (by decide)
  · exact write_command_changes _ _ s (fun s => cmdClearMonitor_changes _ s) (by decide)
  · exact write_command_changes _ _ s (fun s => cmdRestart_changes s) (by decide)
  · exact write_command_changes _ _ s (fun s => cmdWipe_changes s) (by decide)
  · exact s.transfer_changes _
  · exact s.transfer_changes _
  · exact s.transfer_changes _
  · exact (s.hearKind_changes _ _).mono (by decide)
  · exact (s.hearKind_changes _ _).mono (by decide)
  · exact (s.hearKind_changes _ _).mono (by decide)
  · exact (s.hearKind_changes _ _).mono (by decide)
  · exact (s.hearKind_changes _ _).mono (by decide)
  · exact (s.hearKind_changes _ _).mono (by decide)
  · exact (s.hearKind_changes _ _).mono (by decide)
  · exact (s.hearKind_changes _ _).mono (by decide)
  · exact (s.hearKind_changes _ _).mono (by decide)
  · exact (s.hearKind_changes _ _).mono (by decide)
  · exact (s.hearKind_changes _ _).mono (by decide)
  · exact (s.hearKind_changes _ _).mono (by decide)
  · exact (s.hearFrame_changes _).mono (by decide)
  · exact (s.hearFrame_changes _).mono (by decide)
  · exact (s.hearFrame_changes _).mono (by decide)
  · exact (s.hearFrame_changes _).mono (by decide)
  · exact (s.hearBits_changes _).mono (by decide)
  · exact (s.hearBits_changes _).mono (by decide)
  · exact s.lineIdle_changes.mono (by decide)
  · exact s.lineBusy_changes.mono (by decide)
  · exact s.startAnswer_changes.mono (by decide)
  · exact (whenEnrolled_changes s _ (s.startRequest_changes)).mono (by decide)
  · exact (whenEnrolled_changes s _ (s.spacingExpiry_changes)).mono (by decide)
  · exact ((s.collide_changes).mono (by decide)).trans ((State.drainTest_changes _).mono (by decide))
  · exact ((s.frameSent_changes).mono (by decide)).trans ((State.drainTest_changes _).mono (by decide))
  · exact s.fillRequests_changes.mono (by decide)
  · exact s.beaconTime_changes.mono (by decide)
  · exact s.listenOver_changes.mono (by decide)
  · exact s.sendFailedExpiry_changes.mono (by decide)
  · exact s.answerDroppedExpiry_changes.mono (by decide)
  · exact s.noiseExpiry_changes.mono (by decide)
  · exact s.drainTest_changes.mono (by decide)
  · exact ((s.replyTimeout_changes _).mono (by decide)).trans ((State.drainTest_changes _).mono (by decide))
  · exact s.fillResults_changes.mono (by decide)
  · exact (whenEnrolled_changes s _ (s.pendingClose_changes)).mono (by decide)
  · exact (whenEnrolled_changes s _ (s.sweepStep_changes)).mono (by decide)
  · exact (whenEnrolled_changes s _ (s.windowExpiry_changes)).mono (by decide)
  · exact (whenEnrolled_changes s _ (s.sealDue_changes)).mono (by decide)
  · exact (whenEnrolled_changes s _ (s.completeDeferred_changes)).mono (by decide)
  · exact ((whenEnrolled_changes s _ fun st => s.holdDeadline_changes st _).mono (by decide)).trans
      ((State.drainTest_changes _).mono (by decide))
  · exact (s.peerAbsent_changes _).mono (by decide)
  · exact .refl _ s
  · exact .refl _ s
  · exact (s.resetPin_changes _).mono (by decide)
  · exact s.powerDown_changes.mono (by decide)
  · exact .refl _ s

/-- Every command answers a next state; it moves the clock to the later of its moment and the clock and leaves the
queue alone. -/
theorem exec_next (i : Instr) (s : State) : ∃ t, exec i s = .next t ∧ ChangesOnly allButClock (s.atMoment i.moment) t := by
  have hf : ∀ p ∈ settled, p ∈ allButClock := by decide
  by_cases h1 : ∃ t, i = .coldStart t
  · obtain ⟨t, rfl⟩ := h1
    exact ⟨_, rfl, (ChangesOnly.ite (.refl _ _) (State.powerUp_changes _)).trans ((finish_changes _).mono hf)⟩
  by_cases h2 : ∃ t, i = .warmStart t
  · obtain ⟨t, rfl⟩ := h2
    exact ⟨_, rfl, (ChangesOnly.ite (.refl _ _) (State.powerUp_changes _)).trans ((finish_changes _).mono hf)⟩
  by_cases h3 : ∃ t, i = .retentionLoss t
  · obtain ⟨t, rfl⟩ := h3
    exact ⟨_, rfl, ((State.loseRetention_changes _).mono (by decide)).trans ((finish_changes _).mono hf)⟩
  · rw [exec_event i s (fun t h => h1 ⟨t, h⟩) (fun t h => h2 ⟨t, h⟩) fun t h => h3 ⟨t, h⟩]
    exact ⟨_, rfl, (ChangesOnly.ite (work_changes i _) (.refl _ _)).trans ((finish_changes _).mono hf)⟩

end Sys2Proof.Machine
end

