-- ==== Sys2Proof/Laws/Latches.lean ====
section
/-! SUPPORT. What the operations do to the latched flags (R172): all but CLEAR_MONITOR and the starts only add flags, and
only of sources whose enables are both on. -/

namespace Sys2Proof.Machine

/-- The enables stand, no latched flag is cleared, and a flag is added only with both its enables on. -/
def LatchesGrow (s t : State) : Prop :=
  t.mu.detect = s.mu.detect ∧ t.mu.latch = s.mu.latch ∧ ∀ k,
    (s.mu.latched.getLsbD k = true → t.mu.latched.getLsbD k = true) ∧
      (t.mu.latched.getLsbD k = true →
        s.mu.latched.getLsbD k = true ∨ (s.mu.detect.getLsbD k = true ∧ s.mu.latch.getLsbD k = true))

theorem LatchesGrow.refl (s : State) : LatchesGrow s s := ⟨rfl, rfl, fun _ => ⟨id, .inl⟩⟩

theorem LatchesGrow.trans {s t u : State} (h : LatchesGrow s t) (g : LatchesGrow t u) : LatchesGrow s u := by
  obtain ⟨h1, h2, h3⟩ := h
  obtain ⟨g1, g2, g3⟩ := g
  refine ⟨g1.trans h1, g2.trans h2, fun k => ⟨fun x => (g3 k).1 ((h3 k).1 x), fun x => ?_⟩⟩
  rcases (g3 k).2 x with y | y
  · exact (h3 k).2 y
  · rw [h1, h2] at y; exact .inr y

/-- An operation that touches neither the latches nor the enables. -/
theorem LatchesGrow.of_changes {ps : List Part} {s t : State} (h : ChangesOnly ps s t) (h1 : .latched ∉ ps)
    (h2 : .enables ∉ ps) : LatchesGrow s t := by
  have e1 : t.mu.latched = s.mu.latched := h .latched h1
  have e2 : (t.mu.detect, t.mu.latch, t.mu.stopOnError) = (s.mu.detect, s.mu.latch, s.mu.stopOnError) := h .enables h2
  rw [Prod.mk.injEq, Prod.mk.injEq] at e2
  refine ⟨e2.1, e2.2.1, fun k => ?_⟩
  rw [e1]; exact ⟨id, .inl⟩

theorem LatchesGrow.ite {s t u : State} {c : Prop} [Decidable c] (h : LatchesGrow s t) (g : LatchesGrow s u) :
    LatchesGrow s (if c then t else u) := by
  split
  · exact h
  · exact g

/-- A flag after `relatch`: as it was, or its source is enabled and its condition live (R172). -/
theorem relatch_latched (s : State) (k : Nat) : (relatch s).mu.latched.getLsbD k = true ↔
    s.mu.latched.getLsbD k = true ∨
      ((s.mu.detect.getLsbD k = true ∧ s.mu.latch.getLsbD k = true) ∧ (liveBits s).getLsbD k = true) := by
  simp [relatch]

theorem relatch_grows (s : State) : LatchesGrow s (relatch s) :=
  ⟨rfl, rfl, fun k => ⟨fun h => (relatch_latched s k).2 (.inl h), fun h => ((relatch_latched s k).1 h).imp_right And.left⟩⟩

theorem State.protocolFault_grows (s : State) (q : Nat) : LatchesGrow s (s.protocolFault q) :=
  (LatchesGrow.of_changes (s.modPeer_changes _ _) (by decide) (by decide)).trans (relatch_grows _)

theorem State.closeAt_grows (s : State) (st : Settings) (t : Nat) : LatchesGrow s (s.closeAt st t) := by
  unfold State.closeAt
  dsimp only
  refine LatchesGrow.trans ?_ (relatch_grows _)
  refine LatchesGrow.trans ?_ (.of_changes (State.sweepOfNothing_changes _) (by decide) (by decide))
  refine LatchesGrow.trans ?_ (.of_changes (State.formExposures_changes _ _) (by decide) (by decide))
  exact .refl _

theorem State.completeSeal_grows (s : State) (st : Settings) (x : SealingSet) (no : SlotNo) :
    LatchesGrow s (s.completeSeal st x no) := by
  unfold State.completeSeal
  dsimp only
  refine LatchesGrow.trans (t := relatch _) ?_ (.of_changes (State.askTallies_changes _ _) (by decide) (by decide))
  refine LatchesGrow.trans ?_ (relatch_grows _)
  refine LatchesGrow.trans ?_ (.of_changes (State.retestTallies_changes _ _) (by decide) (by decide))
  refine LatchesGrow.trans ?_ (.of_changes (State.formExposures_changes _ _) (by decide) (by decide))
  exact .refl _

theorem State.pendingClose_grows (s : State) (st : Settings) : LatchesGrow s (s.pendingClose st) := by
  unfold State.pendingClose
  split
  · exact s.closeAt_grows _ _
  · exact .refl _

theorem State.makeSeal_grows (s : State) (st : Settings) (forced : Bool) : LatchesGrow s (s.makeSeal st forced) := by
  unfold State.makeSeal
  split
  · exact .refl _
  · dsimp only
    split
    · refine LatchesGrow.trans ?_ (State.pendingClose_grows _ _)
      refine LatchesGrow.trans ?_ (State.completeSeal_grows _ _ _ _)
      exact .refl _
    · exact .refl _

theorem State.completeDeferred_grows (s : State) (st : Settings) : LatchesGrow s (s.completeDeferred st) := by
  unfold State.completeDeferred
  split
  · exact (s.completeSeal_grows _ _ _).trans (State.pendingClose_grows _ _)
  · exact .refl _

theorem State.sweepEnd_grows (s : State) (st : Settings) : LatchesGrow s (s.sweepEnd st) := by
  unfold State.sweepEnd
  dsimp only
  split
  · exact LatchesGrow.trans (t := s.setCursor none) (.refl _) (State.makeSeal_grows _ _ _)
  · exact .refl _

theorem State.sweepStep_grows (s : State) (st : Settings) : LatchesGrow s (s.sweepStep st) := by
  unfold State.sweepStep
  split; · exact .refl _
  split
  · exact s.sweepEnd_grows st
  · dsimp only
    have h : LatchesGrow s ((s.examine st ‹Card›).setCursor (some ‹Card›.serial)) :=
      .of_changes ((s.examine_changes st ‹Card›).comp (State.setCursor_changes _ _)
        (rs := [.cards, .money, .saturation, .cursor]) (by decide) (by decide)) (by decide) (by decide)
    split
    · exact h.trans (State.sweepEnd_grows _ st)
    · exact h

theorem State.windowExpiry_grows (s : State) (st : Settings) : LatchesGrow s (s.windowExpiry st) := by
  unfold State.windowExpiry
  split
  · exact .refl _
  · split
    · dsimp only
      split
      · exact LatchesGrow.trans (t := { s with cc := { s.cc with sealTimer := none } }) (.refl _)
          (State.makeSeal_grows _ _ _)
      · exact .refl _
    · exact .refl _

theorem State.sealDue_grows (s : State) (st : Settings) : LatchesGrow s (s.sealDue st) := by
  unfold State.sealDue; exact .ite (s.makeSeal_grows _ _) (.refl _)

theorem State.catchUp_grows (s : State) (st : Settings) (t : Nat) : LatchesGrow s (s.catchUp st t) := by
  unfold State.catchUp
  split
  · exact s.closeAt_grows _ _
  · exact .refl _
  · exact LatchesGrow.trans (t := s.keepTarget t) (.refl _) (State.makeSeal_grows _ _ _)
  · exact .refl _

theorem State.closeDay_grows (s : State) (st : Settings) : LatchesGrow s (s.closeDay st).1 := by
  unfold State.closeDay
  dsimp only
  split; · exact .refl _
  split
  · exact s.closeAt_grows _ _
  · exact .refl _
  · split
    · exact LatchesGrow.trans (t := s.keepTarget _) (.refl _) (State.makeSeal_grows _ _ _)
    · exact s.makeSeal_grows _ _
  · exact .refl _

theorem State.readStatement_grows (s : State) (st : Settings) : LatchesGrow s (s.readStatement st).1 := by
  unfold State.readStatement
  split
  · exact .refl _
  · dsimp only
    split
    · exact .refl _
    · exact LatchesGrow.trans (t := { s with su := s.su.freeOldest }) (.refl _) (State.completeDeferred_grows _ _)

theorem State.onHeader_grows (s : State) (st : Settings) (h : Header) : LatchesGrow s (s.onHeader st h) := by
  unfold State.onHeader State.catchUpCheck
  refine LatchesGrow.trans ?_ (relatch_grows _)
  refine LatchesGrow.trans (.of_changes (s.hearPeer_changes h) (by decide) (by decide)) ?_
  exact .ite (State.catchUp_grows _ _ _) (.refl _)

theorem State.onAsk_grows (s : State) (st : Settings) (h : Header) (home serial asked least : Nat) :
    LatchesGrow s (s.onAsk st h home serial asked least) := by
  refine LatchesGrow.trans (t := (s.serveAsk st h.source h.tag home serial asked least).1) ?_
    (.of_changes (State.answerTo_changes _ _ _ _) (by decide) (by decide))
  unfold State.serveAsk
  split; · exact .refl _
  split; · exact .refl _
  split; · exact .refl _
  split; · exact .refl _
  split
  · split
    · exact .refl _
    · exact s.protocolFault_grows _
  · exact .of_changes (s.requestHold_changes _ _ _ _ _ _ _) (by decide) (by decide)

theorem State.handOver_grows (s : State) (st : Settings) (h : Header) (b : Body) :
    LatchesGrow s (s.handOver st h b) := by
  unfold State.handOver
  split
  · exact s.onAsk_grows _ _ _ _ _ _
  · exact .of_changes ((s.serveTake_changes _ _ _ _ _ _).comp (State.answerTo_changes _ _ _ _)
      (rs := .answers :: .answerDropped :: holdParts) (by decide) (by decide)) (by decide) (by decide)
  · exact .of_changes ((s.freeHold_changes _ _ _ _).comp (State.answerTo_changes _ _ _ _)
      (rs := .answers :: .answerDropped :: holdParts) (by decide) (by decide)) (by decide) (by decide)
  · exact .of_changes ((s.serveCredit_changes _ _ _ _ _ _).comp (State.answerTo_changes _ _ _ _)
      (rs := .answers :: .answerDropped :: holdParts) (by decide) (by decide)) (by decide) (by decide)
  · exact .of_changes (s.onTally_changes _ _) (by decide) (by decide)
  · exact .of_changes (s.onCheck_changes _) (by decide) (by decide)
  · exact .of_changes (s.onBeacon_changes _) (by decide) (by decide)
  all_goals exact .of_changes (s.serveAnswer_changes _ _ _) (by decide) (by decide)

theorem State.readBody_grows (s : State) (st : Settings) (h : Header) (x : RxBody) :
    LatchesGrow s (s.readBody st h x) := by
  unfold State.readBody
  split
  · exact s.handOver_grows _ _ _
  · unfold State.onMalformed
    exact .ite ((s.protocolFault_grows _).trans (.of_changes (State.answerTo_changes _ _ _ _) (by decide) (by decide)))
      (s.protocolFault_grows _)

theorem State.hearGood_grows (s : State) (h : RxHeader) (x : RxBody) : LatchesGrow s (s.hearGood h x) := by
  unfold State.hearGood whenEnrolled
  split
  · split
    · split
      · unfold State.onReadable
        dsimp only
        split
        · exact .of_changes s.clashFound_changes (by decide) (by decide)
        · refine LatchesGrow.trans (s.onHeader_grows ‹Settings› ‹Header›) ?_
          exact .ite ((State.readBody_grows _ _ _ _).trans
            (.of_changes (State.drainTest_changes _) (by decide) (by decide)))
            (.of_changes (State.drainTest_changes _) (by decide) (by decide))
      · exact .refl _
    · exact .refl _
  · exact .refl _

theorem State.hearBits_grows (s : State) (bs : List Bool) : LatchesGrow s (s.hearBits bs) := by
  unfold State.hearBits
  split
  · exact s.hearGood_grows _ _
  · exact .refl _
  · exact .ite (.of_changes s.countBad_changes (by decide) (by decide)) (.refl _)
  · exact .ite (.of_changes s.countBad_changes (by decide) (by decide)) (.refl _)

end Sys2Proof.Machine
end

