-- ==== Sys2Proof/Laws/Line.lean ====
section
/-! SUPPORT. What the line form of a frame is (R76): its length, and that a receiver reads back the bytes sent. -/

namespace Sys2Proof.Machine

@[simp] theorem byteBits_length (b : Byte) : (byteBits b).length = 8 := by simp [byteBits]

theorem flatMap_byteBits_length (bs : List Byte) : (bs.flatMap byteBits).length = 8 * bs.length := by
  induction bs with
  | nil => rfl
  | cons b bs ih => simp only [List.flatMap_cons, List.length_append, byteBits_length, ih, List.length_cons]; omega

@[simp] theorem lineBits_length (bs : List Byte) : (lineBits bs).length = 24 + 8 * bs.length := by
  simp only [lineBits, List.length_append, flatMap_byteBits_length, List.length_cons]
  have : preamble.length = 16 := by decide
  omega

/-- The time of a frame is that of its bits. -/
theorem frameSpan_eq_bits (bs : List Byte) : frameSpan bs = (lineBits bs).length * Config.bitTime := by
  rw [lineBits_length]; rfl

/-- The bits of a byte spell it. -/
theorem ofBoolListBE_byteBits (b : Byte) : packBytes (byteBits b) = [b] := by
  revert b; decide +kernel

theorem packBytes_byteBits (b : Byte) (rest : List Bool) : packBytes (byteBits b ++ rest) = b :: packBytes rest := by
  have h := ofBoolListBE_byteBits b
  simp only [byteBits, List.range, List.range.loop, List.map_cons, List.map_nil] at h ⊢
  simp only [packBytes, List.cons_append, List.nil_append, List.cons.injEq, and_true] at h ⊢
  exact h

/-- The bits of bytes spell them. -/
theorem packBytes_flatMap (bs : List Byte) : packBytes (bs.flatMap byteBits) = bs := by
  induction bs with
  | nil => rfl
  | cons b bs ih => rw [List.flatMap_cons, packBytes_byteBits, ih]

/-- The line form begins with the preamble and the start byte. -/
theorem lineBits_eq (bs : List Byte) : lineBits bs = (preamble ++ byteBits startByte) ++ bs.flatMap byteBits := by
  simp [lineBits, List.append_assoc]

/-- What a receiver reads, however many of the first 8 bits of the preamble it has missed (R76). -/
theorem recognise_lineBits (bs : List Byte) (k : Nat) (hk : k ≤ 8) :
    recognise ((lineBits bs).drop k) = some (bs.flatMap byteBits) := by
  have h : ∀ r : List Bool, recognise (((preamble ++ byteBits startByte) ++ r).drop k) = some r := by
    intro r
    have e : preamble ++ byteBits startByte =
        [true, false, true, false, true, false, true, false, true, false, true, false, true, false, true, false,
          true, false, true, true, false, false, true, true] := by decide
    have m : startMark =
        [true, false, true, false, true, false, true, false, true, false, true, true, false, false, true, true] := by
      decide
    rw [e]
    interval_cases k <;> simp [recognise, m]
  rw [lineBits_eq]; exact h _

/-- A frame sent is classed by its bytes (R76, R85). -/
theorem classifyBits_lineBits (bs : List Byte) (k : Nat) (hk : k ≤ 8) :
    classifyBits ((lineBits bs).drop k) = classify bs := by
  simp only [classifyBits, recognise_lineBits bs k hk, packBytes_flatMap]

end Sys2Proof.Machine
end

