-- ==== Sys2Proof/Laws/PerInstr.lean ====
section
/-! SUPPORT. Statements for every command, one lemma per constructor: whether a command is well formed does not hang on
its moment, and moving it gives it that moment. -/

namespace Sys2Proof.Laws.WellFormedness

/-- A command moved to another moment is as well formed as it was, and has that moment. -/
def Statement (i : Instr) : Prop := ∀ m, (i.withMoment m).wellFormed = i.wellFormed ∧ (i.withMoment m).moment = m

theorem enrol (t : Moment) (token : Token) (settings : EnrolFields) :
    Statement (.enrol t token settings) := fun _ => ⟨rfl, rfl⟩

theorem join (t : Moment) (token : Token) : Statement (.join t token) := fun _ => ⟨rfl, rfl⟩

theorem drain (t : Moment) (token : Token) : Statement (.drain t token) := fun _ => ⟨rfl, rfl⟩

theorem leave (t : Moment) (token : Token) : Statement (.leave t token) := fun _ => ⟨rfl, rfl⟩

theorem issue (t : Moment) (token : Token) (amount : AmountField) (validity : CycleField) :
    Statement (.issue t token amount validity) := fun _ => ⟨rfl, rfl⟩

theorem load (t : Moment) (token : Token) (ref : RefField) (amount : AmountField) :
    Statement (.load t token ref amount) := fun _ => ⟨rfl, rfl⟩

theorem cashout (t : Moment) (token : Token) (ref : RefField) :
    Statement (.cashout t token ref) := fun _ => ⟨rfl, rfl⟩

theorem freeze (t : Moment) (token : Token) (ref : RefField) : Statement (.freeze t token ref) := fun _ => ⟨rfl, rfl⟩

theorem thaw (t : Moment) (token : Token) (ref : RefField) : Statement (.thaw t token ref) := fun _ => ⟨rfl, rfl⟩

theorem enquire (t : Moment) (token : Token) (ref : RefField) :
    Statement (.enquire t token ref) := fun _ => ⟨rfl, rfl⟩

theorem authorize (t : Moment) (token : Token) (ref : RefField) (asked least : AmountField) :
    Statement (.authorize t token ref asked least) := fun _ => ⟨rfl, rfl⟩

theorem capture (t : Moment) (token : Token) (ref : RefField) (holdId : Num2Field) (amount : AmountField) :
    Statement (.capture t token ref holdId amount) := fun _ => ⟨rfl, rfl⟩

theorem void (t : Moment) (token : Token) (ref : RefField) (holdId : Num2Field) :
    Statement (.void t token ref holdId) := fun _ => ⟨rfl, rfl⟩

theorem refund (t : Moment) (token : Token) (ref : RefField) (trail : Digits8Field) (amount : AmountField) :
    Statement (.refund t token ref trail amount) := fun _ => ⟨rfl, rfl⟩

theorem closeDay (t : Moment) (token : Token) : Statement (.closeDay t token) := fun _ => ⟨rfl, rfl⟩

theorem report (t : Moment) (token : Token) : Statement (.report t token) := fun _ => ⟨rfl, rfl⟩

theorem setRate (t : Moment) (token : Token) (rate : BitVec 16) (fee : BitVec 8) (effective : CycleField) :
    Statement (.setRate t token rate fee effective) := fun _ => ⟨rfl, rfl⟩

theorem readStatement (t : Moment) (token : Token) : Statement (.readStatement t token) := fun _ => ⟨rfl, rfl⟩

theorem readResult (t : Moment) (token : Token) : Statement (.readResult t token) := fun _ => ⟨rfl, rfl⟩

theorem peerStatus (t : Moment) (token : Token) (peer : BitVec 8) :
    Statement (.peerStatus t token peer) := fun _ => ⟨rfl, rfl⟩

theorem clearPeer (t : Moment) (token : Token) (peer : BitVec 8) :
    Statement (.clearPeer t token peer) := fun _ => ⟨rfl, rfl⟩

theorem adjust (t : Moment) (token : Token) (peer : BitVec 8) (dR dL : AmountField) :
    Statement (.adjust t token peer dR dL) := fun _ => ⟨rfl, rfl⟩

theorem status (t : Moment) (token : Token) : Statement (.status t token) := fun _ => ⟨rfl, rfl⟩

theorem clearMonitor (t : Moment) (token : Token) (selection : BitVec 16) :
    Statement (.clearMonitor t token selection) := fun _ => ⟨rfl, rfl⟩

theorem restart (t : Moment) (token : Token) : Statement (.restart t token) := fun _ => ⟨rfl, rfl⟩

theorem wipe (t : Moment) (token : Token) : Statement (.wipe t token) := fun _ => ⟨rfl, rfl⟩

theorem malformedBlock (t : Moment) (mosi : List Byte) : Statement (.malformedBlock t mosi) := fun _ => ⟨rfl, rfl⟩

theorem writeRefusedBusy (t : Moment) (mosi : List Byte) : Statement (.writeRefusedBusy t mosi) := fun _ => ⟨rfl, rfl⟩

theorem responseRead (t : Moment) (mosi : List Byte) : Statement (.responseRead t mosi) := fun _ => ⟨rfl, rfl⟩

theorem askReceived (t : Moment) (h : RxHeader) (ref : RefField) (asked least : AmountField) :
    Statement (.askReceived t h ref asked least) := fun _ => ⟨rfl, rfl⟩

theorem takeReceived (t : Moment) (h : RxHeader) (holdId : Num2Field) (serial : Digits8Field) (amount : AmountField) :
    Statement (.takeReceived t h holdId serial amount) := fun _ => ⟨rfl, rfl⟩

theorem freeReceived (t : Moment) (h : RxHeader) (holdId : Num2Field) (serial : Digits8Field) :
    Statement (.freeReceived t h holdId serial) := fun _ => ⟨rfl, rfl⟩

theorem creditReceived (t : Moment) (h : RxHeader) (serial trail : Digits8Field) (amount : AmountField) :
    Statement (.creditReceived t h serial trail amount) := fun _ => ⟨rfl, rfl⟩

theorem grantReceived (t : Moment) (h : RxHeader) (holdId : Num2Field)
    (granted residual available balance : AmountField) (expiry : CycleField) :
    Statement (.grantReceived t h holdId granted residual available balance expiry) := fun _ => ⟨rfl, rfl⟩

theorem takenReceived (t : Moment) (h : RxHeader) (trail : Digits8Field) (captured released : AmountField)
    (booking : CycleField) (balance : AmountField) :
    Statement (.takenReceived t h trail captured released booking balance) := fun _ => ⟨rfl, rfl⟩

theorem freedReceived (t : Moment) (h : RxHeader) (released balance available : AmountField) :
    Statement (.freedReceived t h released balance available) := fun _ => ⟨rfl, rfl⟩

theorem creditedReceived (t : Moment) (h : RxHeader) (trail : Digits8Field) (amount remaining : AmountField)
    (booking : CycleField) (balance : AmountField) :
    Statement (.creditedReceived t h trail amount remaining booking balance) := fun _ => ⟨rfl, rfl⟩

theorem refuseReceived (t : Moment) (h : RxHeader) (refusedKind reason : Byte) (value : AmountField) :
    Statement (.refuseReceived t h refusedKind reason value) := fun _ => ⟨rfl, rfl⟩

theorem tallyReceived (t : Moment) (h : RxHeader) (cycle : CycleField) (lifeRs lifeLs : AmountField) (marks : Byte) :
    Statement (.tallyReceived t h cycle lifeRs lifeLs marks) := fun _ => ⟨rfl, rfl⟩

theorem checkReceived (t : Moment) (h : RxHeader) : Statement (.checkReceived t h) := fun _ => ⟨rfl, rfl⟩

theorem beaconReceived (t : Moment) (h : RxHeader) : Statement (.beaconReceived t h) := fun _ => ⟨rfl, rfl⟩

theorem frameClash (t : Moment) (f : RxFrame) : Statement (.frameClash t f) := fun _ => ⟨rfl, rfl⟩

theorem malformedFrame (t : Moment) (f : RxFrame) : Statement (.malformedFrame t f) := fun _ => ⟨rfl, rfl⟩

theorem unreadableHeader (t : Moment) (f : RxFrame) : Statement (.unreadableHeader t f) := fun _ => ⟨rfl, rfl⟩

theorem headerOnlyFrame (t : Moment) (f : RxFrame) : Statement (.headerOnlyFrame t f) := fun _ => ⟨rfl, rfl⟩

theorem badFrame (t : Moment) (heard : List Bool) : Statement (.badFrame t heard) := fun _ => ⟨rfl, rfl⟩

theorem fragment (t : Moment) (heard : List Bool) : Statement (.fragment t heard) := fun _ => ⟨rfl, rfl⟩

theorem lineIdle (t : Moment) : Statement (.lineIdle t) := fun _ => ⟨rfl, rfl⟩

theorem lineBusy (t : Moment) : Statement (.lineBusy t) := fun _ => ⟨rfl, rfl⟩

theorem answerStart (t : Moment) : Statement (.answerStart t) := fun _ => ⟨rfl, rfl⟩

theorem requestStart (t : Moment) : Statement (.requestStart t) := fun _ => ⟨rfl, rfl⟩

theorem spacingExpiry (t : Moment) : Statement (.spacingExpiry t) := fun _ => ⟨rfl, rfl⟩

theorem collision (t : Moment) : Statement (.collision t) := fun _ => ⟨rfl, rfl⟩

theorem frameSent (t : Moment) : Statement (.frameSent t) := fun _ => ⟨rfl, rfl⟩

theorem requestQueueFill (t : Moment) : Statement (.requestQueueFill t) := fun _ => ⟨rfl, rfl⟩

theorem beaconTime (t : Moment) : Statement (.beaconTime t) := fun _ => ⟨rfl, rfl⟩

theorem listenEnd (t : Moment) : Statement (.listenEnd t) := fun _ => ⟨rfl, rfl⟩

theorem sendFailedExpiry (t : Moment) : Statement (.sendFailedExpiry t) := fun _ => ⟨rfl, rfl⟩

theorem answerDroppedExpiry (t : Moment) : Statement (.answerDroppedExpiry t) := fun _ => ⟨rfl, rfl⟩

theorem linkNoiseExpiry (t : Moment) : Statement (.linkNoiseExpiry t) := fun _ => ⟨rfl, rfl⟩

theorem drainComplete (t : Moment) : Statement (.drainComplete t) := fun _ => ⟨rfl, rfl⟩

theorem replyTimeout (t : Moment) (tag : Num2Field) : Statement (.replyTimeout t tag) := fun _ => ⟨rfl, rfl⟩

theorem resultQueueFill (t : Moment) : Statement (.resultQueueFill t) := fun _ => ⟨rfl, rfl⟩

theorem pendingClose (t : Moment) : Statement (.pendingClose t) := fun _ => ⟨rfl, rfl⟩

theorem sweepStep (t : Moment) : Statement (.sweepStep t) := fun _ => ⟨rfl, rfl⟩

theorem sealWindowExpiry (t : Moment) : Statement (.sealWindowExpiry t) := fun _ => ⟨rfl, rfl⟩

theorem makeSeal (t : Moment) : Statement (.makeSeal t) := fun _ => ⟨rfl, rfl⟩

theorem deferredSealCompletion (t : Moment) : Statement (.deferredSealCompletion t) := fun _ => ⟨rfl, rfl⟩

theorem holdDeadline (t : Moment) (holdId : Num2Field) : Statement (.holdDeadline t holdId) := fun _ => ⟨rfl, rfl⟩

theorem peerAbsentTimeout (t : Moment) (peer : BitVec 8) :
    Statement (.peerAbsentTimeout t peer) := fun _ => ⟨rfl, rfl⟩

theorem coldStart (t : Moment) : Statement (.coldStart t) := fun _ => ⟨rfl, rfl⟩

theorem warmStart (t : Moment) : Statement (.warmStart t) := fun _ => ⟨rfl, rfl⟩

theorem nrst (t low : Moment) : Statement (.nrst t low) := fun _ => ⟨rfl, rfl⟩

theorem powerLoss (t : Moment) : Statement (.powerLoss t) := fun _ => ⟨rfl, rfl⟩

theorem retentionLoss (t : Moment) : Statement (.retentionLoss t) := fun _ => ⟨rfl, rfl⟩

end Sys2Proof.Laws.WellFormedness
end

