-- ==== Sys2Proof/Tests/Slice0.lean ====
section
/-! SUPPORT. Tests: an ill-formed command for each check, worked examples of the spec, one step of some commands, and
for every obligation a concrete state and operands that meet its hypotheses together. -/

namespace Sys2Proof.Tests

open Sys2Proof Sys2Proof.Machine

/- The theorems are checked one after the other: side by side they take a thread, and its stack, each. -/
set_option Elab.async false

/-! ### Ill-formed commands -/

/-- A readable header to station 7 from station 9 with tag 5. -/
def hd : RxHeader := ⟨7, 9, 0x000001, 1, 5⟩

theorem test_wellFormed_refuses_empty_transfer :
    Instr.wellFormed (.malformedBlock 0 []) = false ∧ Instr.wellFormed (.writeRefusedBusy 0 []) = false ∧
      Instr.wellFormed (.responseRead 0 []) = false := by decide

theorem test_wellFormed_refuses_long_body :
    Instr.wellFormed (.malformedFrame 0 ⟨hd, 0x10, List.replicate 41 0⟩) = false ∧
      Instr.wellFormed (.malformedFrame 0 ⟨hd, 0x10, List.replicate 40 0⟩) = true := by decide

theorem test_wellFormed_refuses_long_hearing :
    Instr.wellFormed (.badFrame 0 (List.replicate 441 false)) = false ∧
      Instr.wellFormed (.fragment 0 (List.replicate 441 false)) = false ∧
      Instr.wellFormed (.badFrame 0 (List.replicate 440 false)) = true := by decide +kernel

theorem test_wellFormed_refuses_id_zero :
    Instr.wellFormed (.replyTimeout 0 0) = false ∧ Instr.wellFormed (.holdDeadline 0 0) = false ∧
      Instr.wellFormed (.replyTimeout 0 65535) = true := by decide

theorem test_wellFormed_refuses_peer_out_of_range :
    Instr.wellFormed (.peerAbsentTimeout 0 0) = false ∧ Instr.wellFormed (.peerAbsentTimeout 0 64) = false ∧
      Instr.wellFormed (.peerAbsentTimeout 0 63) = true := by decide

/-! ### Worked examples of the spec -/

theorem test_checkDigit_examples :
    checkDigit 7 12345 = 4 ∧ checkDigit 63 99999999 = 1 ∧ checkDigit 12 1 = 0 := by decide

theorem test_readRef_examples :
    readRef 0x07000123454F = some ⟨7, 12345⟩ ∧ readRef 0x07000123455F = none ∧ readRef 0x00000123453F = none ∧
      readRef 0x07000000001F = none ∧ readRef 0x0700012345AF = none := by decide

theorem test_bcd_examples :
    bcdNat? 2 0x1A = none ∧ bcdNat? 2 0x99 = some 99 ∧ 9 < 0x1A / 16 ^ 0 % 16 ∧ 0x99 / 16 ^ 1 % 16 ≤ 9 := by decide

theorem test_rate_examples :
    rateOf 1999 25 = 5 ∧ rateOf 200 25 = 1 ∧ rateOf 199 25 = 0 ∧ rateOf 40000 275 = 1100 ∧
      rateOf 999999999999 1500 = 150000000000 ∧ rateOf 123456 0 = 0 := by decide

theorem test_grant_example :
    grantOf 8000 2500 5000 = .granted 5000 3000 5000 ∧ grantOf 8000 2500 2499 = .funds 8000 2499 ∧
      grantOf 8000 2500 8000 = .granted 8000 0 8000 := by decide

theorem test_amount_fields :
    readSigned 0x01000000001234 = some (-1234) ∧ readSigned 0x01000000000000 = some 0 ∧
      readUnsigned 0x01000000001234 = none ∧ readSigned 0x02000000001234 = none ∧
      readCardAmount 0x00000009999999 = some 9999999 ∧ readCardAmount 0x00000010000000 = none ∧
      readSigned 0x0000000000000A = none := by decide

theorem test_frame_spans :
    frameSpan (frameBytes 7 1 .active ⟨9, 5, .ask 9 1 100 100⟩) = 280 * 2 ∧
      frameSpan (frameBytes 7 1 .active ⟨9, 5, .grant 1 1 0 1 1 none⟩) = 384 * 2 := by decide +kernel

/-- A marked Λ leaves C and N marked (R12). -/
theorem test_marked_liability_marks_commission :
    commission ⟨10000, false⟩ ⟨5, true⟩ ⟨1, false⟩ ⟨250, 10⟩ = ⟨260, true⟩ ∧
      (netOf ⟨10000, false⟩ ⟨260, true⟩ ⟨5, true⟩).mark = true := by decide

/-- The check word of the CRC generator of R78 with the register preset to ones, over the nine digits. -/
theorem test_crc_check :
    crc16 [0x31, 0x32, 0x33, 0x34, 0x35, 0x36, 0x37, 0x38, 0x39] = 0xAEE7 := by decide +kernel

theorem test_life_total_saturates :
    Total.acc ⟨999999999000, false⟩ 2500 = ⟨999999999999, true⟩ ∧
      Total.acc ⟨999999999999, true⟩ 100 = ⟨999999999999, true⟩ ∧
      Total.accSat ⟨999999999000, false⟩ 2500 = true ∧ Total.accSat ⟨999999999999, true⟩ 100 = false := by decide

/-- Plain figures: R, L and K. -/
def figures (r l : Int) (k : Nat) : Figures := ⟨⟨r, false⟩, ⟨l, false⟩, ⟨k, false⟩, .zero, .zero⟩

/-- What the seal statements of the worked cases are built from. -/
def source (lines : List PeerLine) : StatementSource := ⟨.sealed, 212, false, ⟨275, 5⟩, .zero, lines⟩

theorem test_seal_statement_of_cycle_212 :
    let x := (source [⟨5, figures 400000 250000 6⟩, ⟨6, .zero⟩, ⟨22, figures 784567 502000 10⟩,
      ⟨40, figures 50000 50000 2⟩]).build 43
    x.g.val = 1234567 ∧ x.lam.val = 802000 ∧ x.k.n = 18 ∧ x.c.val = 34041 ∧ x.n.val = 398526 ∧
      x.direction = .mallPays ∧ x.amountDue = 398526 ∧ x.lines.length = 3 ∧ x.saturated = false := by
  decide +kernel

theorem test_seal_statement_of_a_negative_base :
    let x := (source [⟨22, figures 3000 25000 3⟩, ⟨31, figures (-4200) 0 0⟩]).build 44
    x.c.val = 0 ∧ x.n.val = -26200 ∧ x.direction = .stationPays ∧ x.amountDue = 26200 := by decide +kernel

/-! ### Small states -/

/-- The settings of station 7. -/
def plain : Settings :=
  { station := 7, cardArea := 256, holdArea := 32, trailArea := 512, cardCeiling := 9999, floatLimit := 300000,
    exposureLimit := 30000, exposureBand := 5000, holdLifetime := 30, sealWindow := 30, requestSpacing := 1,
    retention := 1, initialRate := 250, initialFee := 10, detectEnables := 0, latchEnables := 0,
    stopOnError := false }

/-- The ENROL fields that spell them. -/
def plainFields : EnrolFields :=
  { station := 7, cardArea := 256, holdArea := 32, trailArea := 512, cardCeiling := 0x9999, floatLimit := 0x300000,
    exposureLimit := 0x30000, exposureBand := 0x5000, holdLifetime := 30, sealWindow := 30, requestSpacing := 1,
    retention := 1, initialRate := 250, initialFee := 10, detectEnables := 0, latchEnables := 0, stopOnError := 0 }

/-- A part that has just been enrolled as station 7. -/
def ready : State :=
  { State.reset with
    tp := { Port.reset with settings := some plain }, cc := { Cycles.reset with active := some ⟨250, 10⟩ } }

/-- Changes to one block of a state. -/
def inCards (f : CardTable → CardTable) (s : State) : State := { s with ct := f s.ct }
def inHolds (f : HoldTable → HoldTable) (s : State) : State := { s with ht := f s.ht }
def inTrail (f : Trail → Trail) (s : State) : State := { s with tr := f s.tr }
def inTable (f : ExchangeTable → ExchangeTable) (s : State) : State := { s with xt := f s.xt }
def inLink (f : Link → Link) (s : State) : State := { s with lc := f s.lc }
def inCycles (f : Cycles → Cycles) (s : State) : State := { s with cc := f s.cc }
def inSlots (f : StatementUnit → StatementUnit) (s : State) : State := { s with su := f s.su }
def inPort (f : Port → Port) (s : State) : State := { s with tp := f s.tp }
def inMonitor (f : Monitor → Monitor) (s : State) : State := { s with mu := f s.mu }

/-- Station 7 in a station state. -/
def stationed (x : StationState) : State := inLink (fun l => { l with station := x }) ready

/-- Peer 9 is PRESENT. -/
def met (s : State) : State := s.modPeer 9 fun e => { e with presence := .present, lastHeard := some 5000000 }

/-- Station 7 on the line, peer 9 PRESENT. -/
def onLine : State := met (stationed .active)

/-- A card record of 50.00 with a hold of 20.00 on it, or of another state, balance, hold and expiry. -/
def card (state : CardState) (balance held openHolds : Nat) (expiry : Option Nat) : Card :=
  { serial := 1, state := state, balance := balance, held := held, openHolds := openHolds, expiry := expiry,
    lastChange := 1, sweepMark := 1 }

/-- One card in the table. -/
def having (c : Card) (s : State) : State := inCards (fun t => { t with cards := [c], serialNext := some 2 }) s

/-- The reference of card 1 of station 7, and of card 1 of station 9. -/
def ownRef : RefField := 0x07000000018F
def foreignRef : RefField := 0x09000000014F

/-- A hold of 20.00 on card 1, asked by a station. -/
def hold (asker : Nat) (tag : Option Nat) (state : HoldState) : Hold :=
  { id := 1, serial := 1, asker := asker, askTag := tag, asked := 2000, least := 2000, amount := 2000, state := state,
    deadline := if state = .held then some 30000000 else none, captureTag := none, captured := none, trailNo := none,
    booking := none }

/-- That hold captured with tag 5 into trail entry 1. -/
def takenHold : Hold :=
  { hold 9 (some 4) .captured with captureTag := some 5, captured := some 1500, trailNo := some 1, booking := some 1 }

/-- The hold in the table, with a card that carries it. -/
def holding (h : Hold) (c : Card) (s : State) : State :=
  inHolds (fun t => { t with
    holds := [h], nextId := 2,
    openCount := if h.state = .held then 1 else 0,
    peerOpenCount := if h.state = .held ∧ h.asker ≠ 7 then 1 else 0,
    endList := if h.state = .held then [] else [1] }) (having c s)

/-- A trail entry of a capture of 15.00 with 5.00 refunded. -/
def entry (redeemer serial : Nat) (credit : Option LastCredit) : TrailEntry :=
  { number := 1, serial := serial, redeemer := redeemer, captureTag := some 5, captured := 1500, refunded := 500,
    booking := 1, lastCredit := credit }

/-- The trail holds these entries. -/
def trailed (l : List TrailEntry) (s : State) : State := inTrail (fun _ => ⟨l, 2⟩) s

/-- The trail is full, its oldest entry booked in a cycle. -/
def fullTrail (booking : Nat) : State → State :=
  trailed (List.replicate 512 { entry 9 1 none with booking := booking })

/-- An exchange with station 9. -/
def exchange (p : ExParams) (state : ExState) (sends : Nat) : Exchange :=
  { tag := 5, params := p, internal := false, home := 9, serial := 1, token := some 8, state := state, sends := sends,
    replyDeadline := if state = .waiting then some 50000 else none, resendWanted := false, result := none }

/-- These exchanges stand in the table. -/
def asking (l : List Exchange) (s : State) : State := inTable (fun t => { t with exchanges := l, nextTag := 6 }) s

/-- The outcome is a next state with a property. -/
def after (i : Instr) (s : State) (p : State → Bool) : Bool :=
  match exec i s with
  | .next t => p t
  | _ => false

/-- The response in the buffer has this status. -/
def replies (x : Status) (t : State) : Bool := match t.tp.response with | some r => decide (r.status = x) | none => false

/-! ### One step -/

theorem test_enrol_then_ready :
    after (.enrol 0 5 plainFields) State.reset (fun t => t.tp.settings == some plain && replies .ok t) = true := by
  decide +kernel

theorem test_issue_first_card :
    after (.issue 0 5 0x5000 3) ready (fun t =>
      t.ct.cards == [{ card .active 5000 0 0 (some 4) with serial := 1 }] && t.ct.float == 5000 && replies .ok t) =
      true := by decide +kernel

theorem test_load_and_cashout :
    after (.load 0 5 ownRef 0x2500) (having (card .active 5000 0 0 none) ready)
        (fun t => t.ct.cards.map Card.balance == [7500] && replies .ok t) = true ∧
      after (.cashout 0 5 ownRef) (having (card .frozen 5000 0 0 none) ready)
        (fun t => t.ct.cards.map Card.state == [.closed] && t.ct.float == -5000) = true := by decide +kernel

theorem test_foreign_load_is_not_home :
    after (.load 0 5 foreignRef 0x2500) ready (replies .notHome) = true := by decide +kernel

theorem test_authorize_own_card :
    after (.authorize 0 5 ownRef 0x8000 0x2500) (having (card .active 5000 0 0 none) ready) (fun t =>
      t.ht.holds.map Hold.amount == [5000] && t.ct.cards.map Card.held == [5000] && replies .ok t) = true := by
  decide +kernel

theorem test_ask_from_a_peer :
    after (.askReceived 0 hd ownRef 0x2000 0x2000) (having (card .active 5000 0 0 none) onLine) (fun t =>
      t.ht.holds.map Hold.asker == [9] && t.heldSum 9 == 2000 &&
        t.lc.answerQ.map QFrame.frame == [⟨9, 5, .grant 1 2000 0 3000 5000 none⟩]) = true := by decide +kernel

theorem test_take_from_a_peer :
    after (.takeReceived 0 hd 1 0x1 0x1500) (holding (hold 9 (some 4) .held) (card .active 5000 2000 1 none) onLine)
      (fun t => t.lc.answerQ.map QFrame.frame == [⟨9, 5, .taken 1 1500 500 1 3500⟩] &&
        (t.peer 9).openF.l.val == 1500 && t.ct.float == -1500) = true := by decide +kernel

theorem test_close_day_with_a_card_sweeps :
    after (.closeDay 0 5) (having (card .active 5000 0 0 none) ready) (fun t =>
      t.cc.phase == .sweeping && t.cc.openCycle == 2 && t.ct.cursor == some 0) = true := by decide +kernel

theorem test_wipe_keeps_a_float :
    after (.wipe 0 5) (inCards (fun t => { t with float := 1 }) ready) (replies .notEmpty) = true := by decide +kernel

theorem test_no_power_no_work :
    after (.issue 0 5 0x5000 3) { ready with power := false } (fun t => t.ct.cards.isEmpty) = true := by decide +kernel

/-- The status word of an ENQUIRE carries open holds in the four bytes of a count (R180). -/
theorem test_enquire_open_holds_is_a_count :
    after (.enquire 0 5 ownRef) (having (card .active 5000 2000 1 none) ready) (fun t =>
      t.tp.response.any fun r => r.values.contains (.count ⟨1, false⟩)) = true ∧
      (Value.count ⟨1, false⟩).bytes = [0, 0, 0, 1] := by decide +kernel

/-- Transitions at 0 and 20 µs: at 24 µs the line is not yet idle, at 44 µs it is (R77). -/
theorem test_idle_counts_from_the_last_transition :
    let s := (ready.atMoment 20).lineBusy
    ready.lineBusy.lc.line = ⟨false, 0⟩ ∧ s.lc.line = ⟨false, 20⟩ ∧
      after (.lineIdle 24) s (fun t => t.lc.line == ⟨false, 20⟩) = true ∧
      after (.lineIdle 44) s (fun t => t.lc.line == ⟨true, 44⟩) = true := by decide +kernel

/-- The transmitter drives twelve bytes since moment 0. -/
def driving (answer : Bool) (s : State) : State :=
  inLink (fun l => { l with tx := .driving answer (List.replicate 12 0) 0 }) s

/-- The preamble on LTX: the first cell is a 1, low then high; the second a 0, high then low (R76). -/
theorem test_ltx_drives_the_cells :
    [0, 1, 2, 3].all (fun t => after (.lineBusy t) (driving true ready) fun u => u.pins.ltx == some (t == 1 || t == 2)) =
      true := by decide +kernel

/-! ### Hypotheses that can be met

One theorem for each obligation with hypotheses: for each of its clauses a concrete state and operands that meet the
hypotheses together. A hypothesis of the form "for every d, x = some d implies …" is shown by the value of x. -/

theorem test_StepRunsFrontCommand_hypotheses :
    ({ State.reset with pending := [.lineIdle 5] } : State).pending = .lineIdle 5 :: [] ∧ State.reset.pending = [] := by
  decide

theorem test_MonitorAndPinsSettled_hypotheses :
    after (.status 0 5) ready State.power = true ∧ after (.powerLoss 0) ready (fun t => !t.power) = true ∧
      after (.lineIdle 0)
        (inMonitor (fun m => { m with detect := 0x1FFF, latch := 0x1FFF })
          (inLink (fun l => { l with clash := true }) (ready.modPeer 9 fun e => { e with standing := .barred })))
        (fun t => [0, 12].all fun k =>
          t.power && t.mu.detect.getLsbD k && t.mu.latch.getLsbD k && (liveBits t).getLsbD k &&
            t.mu.latched.getLsbD k) = true ∧
      after (.lineIdle 5) (driving true ready) (fun t =>
        t.power && t.lc.tx == .driving true (List.replicate 12 0) 0 &&
          (lineBits (List.replicate 12 0))[(t.now - 0) / 2]? == some true) = true ∧
      after (.lineIdle 0) ready (fun t => t.power && t.lc.tx == .idle) = true ∧
      mayLatchWithin (.lineIdle 0) = false ∧ mayClearLatches (.lineIdle 0) = false ∧
      (inMonitor (fun m => { m with latched := 1 }) ready).mu.latched.getLsbD 0 = true := by
  decide +kernel

/-- Each live condition in a state where it alone is true, sources 1 to 13; fifteen bad frames are one too few. -/
theorem test_live_conditions :
    let deferred := inCycles (fun c => { c with phase := .deferred, pendingTarget := some 3 }) ready
    let alone (i : Nat) (s : State) : Bool := (List.range 13).all fun k => (liveBits s).getLsbD k == (k == i)
    ((List.zip (List.range 13)
      [inLink (fun l => { l with clash := true }) ready, inMonitor (fun m => { m with saturation := true }) ready,
       inLink (fun l => { l with badFrames := List.replicate 16 0 }) ready,
       inLink (fun l => { l with sendFailed := some 5 }) ready, inLink (fun l => { l with answerDropped := some 5 }) ready,
       fullTrail 1 ready, inHolds (fun t => { t with openCount := 32 }) ready, deferred,
       inSlots (fun u => { u with reportLost := true }) ready,
       ready.modPeer 9 fun e => { e with presence := .absent }, ready.modPeer 9 fun e => { e with standing := .watch },
       ready.modPeer 9 fun e => { e with tripped := true },
       ready.modPeer 9 fun e => { e with standing := .recheck }]).all fun x => alone x.1 x.2) = true ∧
      alone 13 (inLink (fun l => { l with badFrames := List.replicate 15 0 }) ready) = true ∧
      alone 13 (fullTrail 2 ready) = true := by decide +kernel

/-- CLASH live with its enables each way, latched or not, and the stop on error. -/
theorem test_shown_and_stopped :
    let s (detect latch latched : BitVec 13) : State :=
      inLink (fun l => { l with clash := true })
        (inMonitor (fun m => { m with detect := detect, latch := latch, latched := latched, stopOnError := true }) ready)
    shownBits (s 0 1 1) = 0 ∧ shownBits (s 1 0 0) = 1 ∧ shownBits (s 1 1 0) = 0 ∧ shownBits (s 1 1 1) = 1 ∧
      errorFlag (s 1 0 0) = true ∧ stopped (s 1 0 0) = true ∧ warningFlag (s 1 0 0) = false ∧
      stopped (s 0 0 0) = false ∧ warningFlag (s 4 4 4) = true ∧ errorFlag (s 4 4 4) = false := by decide +kernel

theorem test_EveryCommandCompletes_hypotheses :
    ({ ready with power := false } : State).power = false ∧ (∀ t, Instr.lineIdle 5 ≠ .coldStart t) ∧
      (∀ t, Instr.lineIdle 5 ≠ .warmStart t) ∧ ∀ t, Instr.lineIdle 5 ≠ .retentionLoss t :=
  ⟨rfl, nofun, nofun, nofun⟩

theorem test_plainFields_read : readSettings plainFields = .ok plain := by rfl

theorem test_RateRoundsHalfUpward_hypotheses :
    (ready.setRate 1500 99 2).1.cc.schedule = [⟨2, ⟨1500, 99⟩⟩] ∧ ready.cc.schedule = [] := by decide

theorem test_FeeIsExact_hypotheses :
    (⟨999999, true⟩ : Count).inc.mark = true ∧ (⟨999999, false⟩ : Count).inc.mark = true ∧
      (Count.plus ⟨999999, false⟩ ⟨1, false⟩).mark = true ∧ (Count.plus ⟨999999, true⟩ ⟨0, false⟩).mark = true := by
  decide

theorem test_CountsStopAtTheirLimit_hypotheses :
    let s := ready.modPeer 9 fun e => { e with openF := figures 0 0 999999 }
    (s.peer 9).bookAskingSat (s.cc.booksSealing 1) (false || s.cc.booksLate 1) true 1 1 = true := by decide +kernel

theorem test_SettlementOperations_hypotheses :
    compareAmounts 999999999999 0 = .greater ∧ compareAmounts 0 0 = .equal ∧ (999999999999 : Int) ≤ totalMax ∧
      -totalMax ≤ (-999999999999 : Int) := by decide

theorem test_TotalsAndGrants_hypotheses :
    (-999999999999 : Int) ≤ 999999999999 ∧ (999999999999 : Int) < 1000000000000 ∧
      (-1000000000000 : Int) < -999999999999 ∧ (⟨1, true⟩ : Total).mark = true ∧ Total.zero.mark = false ∧
      (0 < 8000 ∧ 8000 ≤ 8000) ∧ (5000 < 8000 ∧ leastAsRead 8000 2500 ≤ 5000) ∧ 5000 < leastAsRead 8000 0 := by decide

theorem test_EnrolSetsThePartUp_hypotheses :
    State.reset.power = true ∧ State.reset.tp.state = .idle ∧ State.reset.tp.settings = none ∧ tillReady ready plain := by
  decide

/-- Fields with one setting outside its range, in the order of R185. -/
def outside : List (Nat × EnrolFields) :=
  [(1, { plainFields with station := 64 }), (2, { plainFields with cardArea := 255 }),
   (3, { plainFields with holdArea := 31 }), (4, { plainFields with trailArea := 511 }),
   (5, { plainFields with cardCeiling := 0x99 }), (6, { plainFields with floatLimit := 0x99 }),
   (7, { plainFields with exposureLimit := 0xA }), (8, { plainFields with exposureBand := 0x30001 }),
   (13, { plainFields with initialRate := 1501 }), (14, { plainFields with initialFee := 100 }),
   (17, { plainFields with stopOnError := 2 })]

theorem test_EnrolSetsThePartUp_bad_settings : (outside.all fun x => readSettings x.2 == .error x.1) = true := by decide +kernel

theorem test_EnrolSetsThePartUp_clamped :
    readSettings { plainFields with holdLifetime := 601, sealWindow := 29, requestSpacing := 8, retention := 0 } =
      .ok { plain with holdLifetime := 600, sealWindow := 30, requestSpacing := 7, retention := 1 } := by rfl

/-- A block: what its CRC covers, then the CRC. -/
def block (covered : List Byte) : List Byte := covered ++ beBytes 2 (crc16 covered).toNat

theorem test_WrittenBlocksAreTheirCommands_hypotheses :
    parseBlock (block [0x16, 0, 0, 0, 5, 0]) = some .status ∧
      parseBlock (block [0x05, 0, 0, 0, 5, 10, 0, 0, 0, 0, 0, 0x50, 0, 0, 0, 3]) = some (.issue 0x5000 3) ∧
      (∀ f, Command.join ≠ .enrol f) ∧ Command.join ≠ .status ∧ Command.join ≠ .restart ∧ Command.join ≠ .wipe ∧
      State.reset.power = true ∧ State.reset.tp.state = .idle ∧ State.reset.tp.settings = none ∧
      readCycle 0x3 ≠ none ∧ ¬readCycle 0xA ≠ none ∧ bcdNat? 8 1 ≠ none ∧ ¬bcdNat? 8 0xA ≠ none := by
  refine ⟨by decide +kernel, by decide +kernel, nofun, nofun, nofun, nofun, ?_⟩
  decide +kernel

/-- Blocks that are none: too short, a length that is not theirs, a code and a parameter length of no command, another
CRC; and the block of a command that is read. -/
theorem test_WrittenBlocksAreTheirCommands_blocks :
    ([0x16, 0, 0, 0, 5, 0, 0] : List Byte).length < 8 ∧ ([0x16, 0, 0, 5] : List Byte).length < 5 ∧
      (1 : Byte).toNat ≠ ([] : List Byte).length ∧ (0x1B, 0) ∉ [(0x1A, 17), (0x19, 0)] ∧ (0x05, 9) ∉ [(0x05, 10)] ∧
      ([0, 0] : List Byte) ≠ spellNum 2 (crc16 [0x16, 0, 0, 0, 5, 0]).toNat ∧
      Command.status.block 5 = block [0x16, 0, 0, 0, 5, 0] ∧
      (Command.load 0x07000000001F 0x5000).params = [7, 0, 0, 0, 0, 0x1F, 0, 0, 0, 0, 0, 0x50, 0] ∧
      parseBlock ((Command.load 0x07000000001F 0x5000).block 5) = some (.load 0x07000000001F 0x5000) := by
  decide +kernel

/-- Fields spelled in bytes: a number, digits, a signed amount and a card reference. -/
theorem test_spelled_fields :
    spellNum 2 0x1234 = [0x12, 0x34] ∧ spellDigits 3 1234 = [0x00, 0x12, 0x34] ∧
      spellSigned 0 (-1234) = [1, 0, 0, 0, 0, 0x12, 0x34] ∧ spellSigned 2 5 = [2, 0, 0, 0, 0, 0, 5] ∧
      spellRef 7 12345 = [0x07, 0x00, 0x01, 0x23, 0x45, 0x4F] := by decide +kernel

theorem test_PortTransfers_hypotheses :
    let r : Response := ⟨.ok, 5, 0, []⟩
    let s := inPort (fun p => { p with state := .ready, response := some r }) ready
    parseBlock [] = none ∧ ready.tp.state = .idle ∧ s.power = true ∧ s.tp.state = .ready ∧ s.tp.response = some r ∧
      r.bytes.length = 10 ∧ parseBlock (block [0x05, 0, 0, 0, 5, 0]) = none ∧ (0 : Byte) ≠ 0xC1#8 ∧
      (0 : Byte) ≠ 0xC2#8 := by decide +kernel

/-- A link result. -/
def joined : ResultRec := .link .joined .active 1

theorem test_ResultsLeaveOldestFirst_hypotheses :
    let full := inPort (fun p => { p with results := List.replicate 32 joined }) ready
    let room := inPort (fun p => { p with results := List.replicate 31 joined }) ready
    let linked := inLink (fun l => { l with heldLink := some ⟨joined, 0⟩ }) room
    let e : Exchange := { exchange .probe .done 1 with result := some ⟨joined, 3⟩ }
    let x : Exchange := { exchange (.capture 1 1) .unsure 4 with tag := 6, result := some ⟨joined, 4⟩ }
    let both := asking [x, e] room
    tillReady ready plain ∧ ready.tp.results = [] ∧ tillReady room plain ∧
      room.tp.results = joined :: List.replicate 30 joined ∧ 32 ≤ full.tp.results.length ∧
      linked.tp.results.length = 31 ∧ (∀ e ∈ linked.xt.exchanges, e.result = none) ∧
      linked.lc.heldLink = some ⟨joined, 0⟩ ∧ e ∈ both.xt.exchanges ∧ e.result = some ⟨joined, 3⟩ ∧
      both.lc.heldLink = none ∧
      (∀ x ∈ both.xt.exchanges, x ≠ e → x.tag ≠ e.tag ∧ x.result.all (fun v => 3 < v.place) = true) ∧
      (∀ n ∈ [2, 4], (inLink (fun l => { l with heldLink := some ⟨joined, n⟩ }) both).lc.heldLink = some ⟨joined, n⟩) ∧
      full.fillResult = none ∧ both.fillResult.isSome = true ∧
      both.fillResults.xt.exchanges = [x] ∧ both.fillResults.tp.results.length = 32 := by
  decide +kernel

theorem test_JoinLeaveAndWithdrawn_hypotheses :
    ∀ x ∈ [StationState.offline, .listening, .active, .draining, .withdrawn],
      tillReady (stationed x) plain ∧ (stationed x).lc.station = x := by decide +kernel

theorem test_DrainCompletes_hypotheses :
    let s := stationed .draining
    s.lc.station = .draining ∧ s.ht.peerOpenCount = 0 ∧ (∀ e ∈ s.xt.exchanges, e.state = .done) ∧ s.lc.answerQ = [] ∧
      (∀ q ∈ s.lc.requestQ, q.frame.body = .beacon) ∧ (∀ m ∈ s.lc.wanted, m.tally = false ∧ m.check = false) ∧
      s.lc.tx = .idle ∧ ready.lc.station ≠ .draining ∧
      (holding (hold 9 (some 4) .held) (card .active 5000 2000 1 none) s).ht.peerOpenCount ≠ 0 ∧
      (∃ e ∈ (asking [exchange (.capture 1 1) .unsure 4] s).xt.exchanges, e.state ≠ .done) ∧
      (s.offerAnswer ⟨9, 5, .refuse 0x12 .draining 0⟩).lc.answerQ ≠ [] ∧
      (∃ q ∈ (inLink (fun l => { l with requestQ := [⟨⟨9, 0, .check⟩, 1, some 0⟩] }) s).lc.requestQ,
        q.frame.body ≠ .beacon) ∧
      (∃ m ∈ (s.modWanted 9 fun m => { m with check := true }).lc.wanted, m.tally = true ∨ m.check = true) ∧
      (inLink (fun l => { l with tx := .driving true [] 0 }) s).lc.tx ≠ .idle := by decide +kernel

theorem test_IssueMakesACard_hypotheses :
    let atLimit := inCards (fun t => { t with float := 295000 }) ready
    let overLimit := inCards (fun t => { t with float := 295001 }) ready
    let full := inCards (fun t => { t with cards := List.replicate 256 (card .active 0 0 0 none) }) ready
    let out := inCards (fun t => { t with serialNext := none }) ready
    tillReady ready plain ∧ tillReady atLimit plain ∧ tillReady overLimit plain ∧ tillReady full plain ∧
      tillReady out plain ∧ readCycle 0x3661 = some 3661 ∧ readCardAmount 0 = some 0 ∧
      readCardAmount 0x9999 = some 9999 ∧ readCardAmount 0x10000 = some 10000 ∧ plain.cardCeiling < 10000 ∧
      readCardAmount 0x5000 = some 5000 ∧ (5000 : Int) ≤ plain.floatLimit - atLimit.ct.float ∧
      (plain.floatLimit : Int) - overLimit.ct.float < 5000 ∧ plain.cardArea ≤ full.ct.cards.length ∧
      out.ct.serialNext = none ∧ ready.ct.serialNext = some 1 := by decide +kernel

/-- The card records that the access test leaves: of each state, frozen or active with a hold and past the expiry, and
one that the access test itself has lapsed. -/
def kinds : List Card :=
  [card .active 5000 0 0 none, card .frozen 5000 2000 1 none, card .closed 0 0 0 none, card .lapsed 0 0 0 (some 1),
   card .active 5000 2000 1 (some 1), card .frozen 5000 2000 1 (some 1), card .active 5000 0 0 (some 1)]

/-- The card of a state as the access test leaves it. -/
def access (s : State) : Option Card := ((begun s 0).lapseIfDue 1).findCard 1

theorem test_access_leaves_each_kind :
    (kinds.map fun c => (access (having c ready)).map fun c => (c.state, c.lapsePending 1, c.balance, c.openHolds)) =
      [some (.active, false, 5000, 0), some (.frozen, false, 5000, 1), some (.closed, false, 0, 0),
       some (.lapsed, false, 0, 0), some (.active, true, 5000, 1), some (.frozen, true, 5000, 1),
       some (.lapsed, false, 0, 0)] := by decide +kernel

theorem test_LoadAndCashout_hypotheses :
    (∀ c ∈ kinds, tillReady (having c ready) plain) ∧ readRef ownRef = some ⟨plain.station, 1⟩ ∧
      readCardAmount 0 = some 0 ∧ readCardAmount 0x4999 = some (plain.cardCeiling - 5000) ∧
      readCardAmount 0x5000 = some 5000 ∧ plain.cardCeiling - 5000 < 5000 ∧
      (let s := begun (having (card .active 5000 0 0 none) ready) 0
       (4999 : Int) ≤ plain.floatLimit - (s.lapseIfDue 1).ct.float) ∧
      (let s := inCards (fun t => { t with float := 295002 }) (having (card .active 5000 0 0 none) ready)
       tillReady s plain ∧ access s = some (card .active 5000 0 0 none) ∧
         (plain.floatLimit : Int) - ((begun s 0).lapseIfDue 1).ct.float < 4999) := by decide +kernel

theorem test_FreezeThawAndEnquire_hypotheses :
    ∀ c ∈ kinds, tillReady (having c ready) plain ∧ readRef ownRef = some ⟨plain.station, 1⟩ ∧
      (access (having c ready)).isSome = true := by decide +kernel

theorem test_DueCardsLapse_hypotheses :
    let s := inCards (fun t => { t with cursor := some 0, sealOwn := some .zero })
      (inCycles (fun c => { c with openCycle := 2 }) (having (card .active 5000 0 0 (some 2)) ready))
    (card .active 5000 0 0 (some 2)).due s.cc.openCycle = true ∧ s.ct.cursor = some 0 ∧
      (card .active 5000 0 0 (some 2)).sweepMark < s.cc.openCycle ∧ s.ct.sealOwn = some .zero ∧
      ready.ct.cursor = none ∧
      s.cc.openCycle ≤ ({ card .active 5000 0 0 (some 2) with sweepMark := 2 } : Card).sweepMark := by decide +kernel

theorem test_DueCardsLapse_access_hypotheses :
    ready.findCard 1 = none ∧
      (∀ c ∈ [card .active 5000 0 0 none, card .active 5000 0 0 (some 2), card .closed 0 0 0 (some 1)],
        (having c ready).findCard 1 = some c ∧ c.due (having c ready).cc.openCycle = false) ∧
      ∀ n ∈ [0, 1],
        let c := card .frozen 5000 (2000 * n) n (some 1)
        (having c ready).findCard 1 = some c ∧ c.due (having c ready).cc.openCycle = true ∧ c.openHolds = n := by
  decide +kernel

/-- The station is stopped on error: saturated, and detected. -/
def stopOn (s : State) : State :=
  inMonitor (fun m => { m with detect := 0x1FFF, stopOnError := true, saturation := true }) s

/-- Every cell of the Hold Table holds a record, and none or one of them has ended. -/
def fullHolds (endList : List Nat) : State → State :=
  inHolds fun t => { t with holds := List.replicate 32 (hold 7 none .held), endList := endList }

theorem test_LocalAuthorize_hypotheses :
    (∀ n ∈ [0, 3, 4],
      let c := card .active 5000 0 n none
      let s := having c ready
      tillReady s plain ∧ access s = some c ∧ stopped s = false ∧ s.lc.station ≠ .draining ∧ c.openHolds = n ∧
        (((begun s 0).lapseIfDue 1).takeCell plain).isSome = true ∧
        (((begun (fullHolds [1] s) 0).lapseIfDue 1).takeCell plain).isSome = true ∧
        ((begun (fullHolds [] s) 0).lapseIfDue 1).takeCell plain = none) := by decide +kernel

theorem test_LocalAuthorize_other_hypotheses :
    (∀ c ∈ kinds, tillReady (having c ready) plain ∧ stopped (having c ready) = false ∧
      (having c ready).lc.station ≠ .draining) ∧
    readRef ownRef = some ⟨plain.station, 1⟩ ∧ ready.findCard 1 = none ∧ stopped (stopOn ready) = true ∧
    tillReady (stopOn ready) plain ∧ tillReady (stationed .draining) plain ∧
    (stationed .draining).lc.station = .draining ∧ stopped (stationed .draining) = false ∧
    readCardAmount 0x8000 = some 8000 ∧ readCardAmount 0x5000 = some 5000 ∧ readCardAmount 0 = some 0 ∧
    grantOf 8000 (leastAsRead 8000 5000) (5000 - 0) = .granted 5000 3000 5000 ∧
    grantOf 8000 (leastAsRead 8000 0) (5000 - 0) = .funds 8000 5000 := by decide +kernel

theorem test_CellsAndHoldIds_hypotheses :
    let full := inHolds (fun t => { t with holds := List.replicate 32 (hold 7 none .held), nextId := 65535 }) ready
    let ended := inHolds (fun t => { t with endList := [1] }) full
    ready.ht.holds.length < plain.holdArea ∧ plain.holdArea ≤ full.ht.holds.length ∧ full.ht.endList = [] ∧
      plain.holdArea ≤ ended.ht.holds.length ∧ ended.ht.endList = 1 :: [] ∧
      full.ht.nextId ∉ full.ht.holds.map Hold.id ∧ full.ht.holds.length ≤ 1024 ∧ full.ht.nextId ≤ 65535 := by
  decide +kernel

/-- Two ids taken from the counter on, over the end of the range: the next hold takes the third. -/
theorem test_CellsAndHoldIds_wrap :
    let s := inHolds (fun t => { t with
      holds := [{ hold 7 none .held with id := 65535 }, hold 7 none .held], nextId := 65535 }) ready
    s.newHoldId = 2 ∧ 2 = (65535 + 2 - 1) % 65535 + 1 ∧
      ∀ i ∈ [0, 1], (65535 + i - 1) % 65535 + 1 ∈ s.ht.holds.map Hold.id := by decide +kernel

theorem test_LocalCapture_hypotheses :
    (∀ x ∈ [HoldState.held, .captured, .freed, .lapsed],
      let h := hold 7 none x
      let c := card .active 5000 2000 1 none
      let s := holding h c ready
      tillReady s plain ∧ readRef ownRef = some ⟨plain.station, 1⟩ ∧ s.matchHold 1 plain.station 1 = some h ∧
        s.findCard 1 = some c ∧ s.trailRoom plain = some []) ∧
    ready.matchHold 1 plain.station 1 = none ∧ readCardAmount 0 = some 0 ∧ readCardAmount 0x1 = some 1 ∧
    readCardAmount 0x2000 = some 2000 ∧ readCardAmount 0x2001 = some 2001 ∧
    (fullTrail 1 (holding (hold 7 none .held) (card .active 5000 2000 1 none) ready)).trailRoom plain = none ∧
    ((fullTrail 9 (holding (hold 7 none .held) (card .active 5000 2000 1 none) ready)).trailRoom plain).isSome = true := by
  decide +kernel

theorem test_HoldsEndWithoutCapture_hypotheses :
    (∀ x ∈ [HoldState.held, .captured, .freed, .lapsed],
      let h := hold 7 none x
      let c := card .frozen 5000 2000 1 none
      let s := holding h c ready
      tillReady s plain ∧ readRef ownRef = some ⟨plain.station, 1⟩ ∧ s.matchHold 1 plain.station 1 = some h ∧
        s.findCard 1 = some c) ∧
    ready.matchHold 1 plain.station 1 = none ∧
    (∀ p ∈ [7, 9],
      let h := hold p none .held
      let s := holding h (card .active 5000 2000 1 none) ready
      s.power = true ∧ s.tp.settings = some plain ∧ s.findHold 1 = some h ∧ h.state = .held ∧
        h.deadline = some 30000000 ∧ h.asker = p ∧ max s.now 30000000 = 30000000 ∧ max s.now 29999999 < 30000000) ∧
    (hold 9 none .freed).state ≠ .held ∧ ready.findCard 1 = none := by decide +kernel

theorem test_LocalRefund_hypotheses :
    (∀ c ∈ kinds,
      let s := trailed [entry 7 1 none] (having c ready)
      tillReady s plain ∧ (access s).isSome = true ∧ s.findTrail 1 = some (entry 7 1 none) ∧
        (entry 7 1 none).redeemer = plain.station ∧ (entry 7 1 none).serial = 1) ∧
    readRef ownRef = some ⟨plain.station, 1⟩ ∧ (trailed [entry 7 1 none] ready).findCard 1 = none ∧
    (trailed [entry 7 1 none] ready).findTrail 1 = some (entry 7 1 none) ∧
    bcdNat? 8 1 = some 1 ∧ readCardAmount 0x1000 = some (1500 - 500) ∧ readCardAmount 0x1001 = some 1001 ∧
    readCardAmount 0 = some 0 ∧ ready.findTrail 1 = none ∧ (entry 9 1 none).redeemer ≠ plain.station ∧
    (trailed [entry 9 1 none] ready).findTrail 1 = some (entry 9 1 none) ∧
    (trailed [entry 7 2 none] ready).findTrail 1 = some (entry 7 2 none) ∧ (entry 7 2 none).serial ≠ 1 ∧
    plain.cardCeiling - (card .active 9000 0 0 none).balance < 1000 := by decide +kernel

theorem test_ForeignCommandsBecomeExchanges_hypotheses :
    let s := onLine
    tillReady s plain ∧ tillReady ready plain ∧ readRef foreignRef = some ⟨9, 1⟩ ∧ 9 ≠ plain.station ∧
      (∀ p ∈ [ExParams.probe, .hold 8000 2500, .capture 1 1500, .void 1, .refund 1 1000],
        s.admissionStatus 9 p = none ∧ ready.admissionStatus 9 p = some .notActive) ∧
      readCardAmount 0x8000 = some 8000 ∧ readCardAmount 0x2500 = some 2500 ∧ readCardAmount 0 = some 0 ∧
      readCardAmount 0x1 = some 1 ∧ bcdNat? 8 1 = some 1 ∧ bcdNat? 8 0 = some 0 ∧ (1 : Num2Field) ≠ 0 := by
  decide +kernel

theorem test_TillCommandsAreTested_hypotheses :
    tillReady ready plain ∧ readCycle 0x00000A = none ∧ readCycle 0x3 ≠ none ∧ bcdNat? 8 0xA = none ∧
      bcdNat? 8 1 ≠ none ∧ readCardAmount 0x0000000000000A = none ∧ readCardAmount 0x00000010000000 = none ∧
      readRef 0x07000123455F = none ∧ readRef 0x00000123453F = none ∧ readRef ownRef = some ⟨plain.station, 1⟩ ∧
      readRef foreignRef = some ⟨9, 1⟩ ∧ 9 ≠ plain.station ∧ readCardAmount 0x2500 = some 2500 ∧
      readCardAmount 0x2501 = some 2501 ∧ ready.findCard 1 = none := by decide +kernel

theorem test_AdmissionAndTags_hypotheses :
    let full := asking (List.replicate 32 (exchange .probe .queued 0)) ready
    full.xt.nextTag ∉ full.xt.takenTags ∧ full.xt.exchanges.length ≤ 32 ∧ full.xt.ended.length ≤ 64 ∧
      1 ≤ full.xt.nextTag ∧ full.xt.nextTag ≤ 65535 := by decide +kernel

/-- The tag of an exchange and the tag of an ended one are passed over. -/
theorem test_AdmissionAndTags_taken :
    let ended : EndedEntry := ⟨9, 1, .probe, false, 1, none, none, .noAnswer⟩
    let x : ExchangeTable := ⟨[{ exchange .probe .queued 0 with tag := 65535 }], [ended], 65535⟩
    x.newTag = 2 ∧ (∃ e ∈ x.exchanges, e.tag = 65535) ∧ ∃ e ∈ x.ended, e.tag = 1 := by decide +kernel

theorem test_AdmissionAndTags_checks_hypotheses :
    (ready.lc.station ≠ .active ∧ ready.lc.station ≠ .draining ∧ (stationed .draining).lc.station = .draining) ∧
    ((stationed .active).lc.station = .active ∧ ((stationed .active).peer 9).presence = .unknown ∧
      ((onLine.modPeer 9 fun e => { e with presence := .absent }).peer 9).presence = .absent ∧
      (onLine.peer 9).presence = .present ∧ (onLine.peer 9).standing = .good) ∧
    (let s := onLine.modPeer 9 fun e => { e with standing := .barred }
     s.lc.station = .active ∧ (s.peer 9).presence = .present ∧ (s.peer 9).standing = .barred) ∧
    (stopped (stopOn onLine) = true ∧ ((stopOn onLine).peer 9).standing = .good ∧ stopped onLine = false) ∧
    (∀ x ∈ [ExParams.capture 1 1500, .void 1, .refund 1 1000],
      let s := asking [exchange x .queued 0] onLine
      (s.xt.exchanges.map Exchange.home = [9] ∧ (x.holdId? = some 1 ∨ x.trail? = some 1)) ∧
        s.admissionStatus 9 x = some .busy) ∧
    32 ≤ (asking (List.replicate 32 (exchange .probe .queued 0)) onLine).xt.exchanges.length ∧
    onLine.xt.exchanges.length < 32 := by decide +kernel

theorem test_RepliesTimeOut_hypotheses :
    (∀ p ∈ [ExParams.probe, .capture 1 1500, .refund 1 1000], ∀ x ∈ [ExState.queued, .waiting, .unsure],
      ∀ n ∈ [3, 4],
        let e := exchange p x n
        let s := asking [e] onLine
        s.power = true ∧ s.findExchange (5 : Num2Field).toNat = some e ∧ e.state = x ∧ e.sends = n) ∧
    (exchange .probe .waiting 4).replyDeadline = some 50000 ∧ max onLine.now 50000 = 50000 ∧
    max onLine.now 49999 < 50000 ∧ ({ exchange (.void 1) .waiting 4 with internal := true } : Exchange).internal = true ∧
    ∀ k i, ExParams.void 1 ≠ .capture k i ∧ ExParams.void 1 ≠ .refund k i :=
  ⟨by decide +kernel, by decide, by decide, by decide, by decide, fun _ _ => ⟨nofun, nofun⟩⟩

/-- The header `hd` as read. -/
def gh : Header := ⟨7, 9, 1, .active, 5⟩

/-- What a frame from station 9 with the header `hd` finds in a state, and its card 1 after the access test. -/
def heard (s : State) : State := heardFrom s plain 0 gh
def tested (s : State) : Option Card := ((heard s).lapseIfDue 1).findCard 1

theorem test_AskMakesAHold_hypotheses :
    let c := card .active 5000 0 3 none
    let s := having c onLine
    (lineReady s plain ∧ addressed plain hd gh ∧
      (RawBody.ask ownRef 0x8000 0x2500).read = some (.ask plain.station 1 8000 2500) ∧
      (RawBody.ask ownRef 0 0).read = some (.ask plain.station 1 0 0)) ∧
    (stopped (heard s) = false ∧ (heard s).lc.station = .active ∧ ((heard s).peer 9).standing = .good ∧
      ((heard s).peer 9).tripped = false ∧ (heard s).openAsk 9 5 = none) ∧
    tested s = some c ∧ c.state = .active ∧ c.lapsePending (heard s).cc.openCycle = false ∧ c.openHolds < 4 ∧
    grantOf 8000 2500 (c.balance - c.held) = .granted 5000 3000 5000 ∧
    (((heard s).lapseIfDue 1).takeCell plain).isSome = true ∧
    (((heard (fullHolds [1] s)).lapseIfDue 1).takeCell plain).isSome = true := by decide +kernel

theorem test_AskRefusedOrRepeated_hypotheses :
    (∀ c ∈ card .active 5000 0 3 none :: card .active 5000 0 4 none :: kinds,
      let s := having c onLine
      lineReady s plain ∧ stopped (heard s) = false ∧ (heard s).lc.station = .active ∧ (heard s).openAsk 9 5 = none ∧
        ((heard s).peer 9).standing = .good ∧ ((heard s).peer 9).tripped = false ∧ (tested s).isSome = true ∧
        ((heard (fullHolds [] s)).lapseIfDue 1).takeCell plain = none) := by decide +kernel

theorem test_AskRefusedOrRepeated_peer_hypotheses :
    (∀ x ∈ [Standing.good, .watch, .barred, .recheck], ∀ b ∈ [false, true],
      let s := onLine.modPeer 9 fun e => { e with standing := x, tripped := b }
      lineReady s plain ∧ stopped (heard s) = false ∧ (heard s).lc.station = .active ∧
        ((heard s).peer 9).standing = x ∧ ((heard s).peer 9).tripped = b ∧ (heard s).findCard 1 = none) := by
  decide +kernel

theorem test_AskRefusedOrRepeated_other_hypotheses :
    addressed plain hd gh ∧ stopped (heard (stopOn onLine)) = true ∧ lineReady (stopOn onLine) plain ∧
    lineReady (met (stationed .draining)) plain ∧ (heard (met (stationed .draining))).lc.station = .draining ∧
    stopped (heard (met (stationed .draining))) = false ∧
    (let s := holding (hold 9 (some 5) .held) (card .active 5000 2000 1 none) onLine
     (heard s).openAsk 9 5 = some (hold 9 (some 5) .held) ∧ lineReady s plain) ∧
    (RawBody.ask ownRef 0x2000 0x2000).read = some (.ask 7 1 2000 2000) ∧
    (RawBody.ask ownRef 0x2001 0x2000).read = some (.ask 7 1 2001 2000) ∧
    (RawBody.ask foreignRef 0x2000 0x2000).read = some (.ask 9 1 2000 2000) ∧
    grantOf 8000 8000 5000 = .funds 8000 5000 := by decide +kernel

/-- The record of a resent ASK, and of a request, behind another one. -/
theorem test_records_found :
    let other := { hold 8 (some 5) .held with id := 2 }
    let h := hold 9 (some 5) .held
    let s := inHolds (fun t => { t with holds := [other, h] }) onLine
    s.ht.holds = [other] ++ h :: [] ∧ other.asker ≠ 9 ∧ h.state = .held ∧ h.askTag = some 5 ∧
      s.openAsk 9 5 = some h ∧ s.openAsk 9 6 = none ∧ s.matchHold 1 9 1 = some h ∧ s.matchHold 2 9 1 = none := by
  decide +kernel

/-- The peers that a header finds: not PRESENT, and of a later cycle while each phase runs. -/
theorem test_heard_first_and_later :
    let stranger := having (card .active 5000 0 0 none) (stationed .active)
    let later : Header := { gh with cycle := 5 }
    lineReady stranger plain ∧ (stranger.peer 9).presence ≠ .present ∧ ((heard stranger).peer 9).presence = .present ∧
      (tested stranger).isSome = true ∧ addressed plain { hd with cycle := 0x5 } later ∧
      (heardFrom stranger plain 0 later).cc.openCycle = 5 ∧ stranger.cc.openCycle < later.cycle := by decide +kernel

theorem test_TakeCapturesTheHold_hypotheses :
    (∀ h ∈ [hold 9 (some 4) .held, hold 9 (some 4) .freed, hold 9 (some 4) .lapsed, takenHold,
        { takenHold with captureTag := some 6 }],
      let c := card .active 5000 2000 1 none
      let s := holding h c onLine
      lineReady s plain ∧ (heard s).matchHold 1 9 1 = some h ∧ (heard s).findCard 1 = some c ∧
        (heard s).trailRoom plain = some [] ∧ lineReady (fullTrail 1 s) plain ∧
        (heard (fullTrail 1 s)).matchHold 1 9 1 = some h ∧ (heard (fullTrail 1 s)).trailRoom plain = none) := by
  decide +kernel

theorem test_TakeCapturesTheHold_other_hypotheses :
    addressed plain hd gh ∧ (heard onLine).matchHold 1 9 1 = none ∧ (heard onLine).searchTrail 9 5 1 = none ∧
    lineReady (trailed [entry 9 1 none] onLine) plain ∧
    (heard (trailed [entry 9 1 none] onLine)).searchTrail 9 5 1 = some (entry 9 1 none) ∧
    (heard (trailed [entry 9 1 none] onLine)).matchHold 1 9 1 = none ∧
    (RawBody.take 1 0x1 0).read = some (.take 1 1 0) ∧ (RawBody.take 1 0x1 0x1).read = some (.take 1 1 1) ∧
    (RawBody.take 1 0x1 0x2000).read = some (.take 1 1 2000) ∧
    (RawBody.take 1 0x1 0x2001).read = some (.take 1 1 2001) ∧ takenHold.captureTag = some gh.tag ∧
    takenHold.captured = some 1500 ∧ takenHold.trailNo = some 1 ∧ takenHold.booking = some 1 := by decide +kernel

/-- A full trail gives room over a head of a sealed cycle, and not over one of the open or the sealing cycle; the search
finds the later of two captures. -/
theorem test_trail_room_and_search :
    let sealing := inCycles (fun c => { c with openCycle := 2, sealing := some ⟨1, ⟨250, 10⟩, false⟩ })
    let past := inCycles (fun c => { c with openCycle := 3 })
    let e := { entry 9 1 none with number := 2 }
    (fullTrail 1 onLine).tr.entries.length = plain.trailArea ∧ (fullTrail 1 onLine).trailRoom plain = none ∧
      (sealing (fullTrail 1 onLine)).trailRoom plain = none ∧
      ((past (fullTrail 1 onLine)).trailRoom plain).map List.length = some 511 ∧
      (trailed [entry 9 1 none] onLine).trailRoom plain = some [entry 9 1 none] ∧
      (trailed [entry 9 1 none, e, entry 8 1 none] onLine).searchTrail 9 5 1 = some e := by decide +kernel

theorem test_FreeReleasesTheHold_hypotheses :
    (∀ h ∈ [hold 9 (some 4) .held, hold 9 (some 4) .freed, hold 9 (some 4) .lapsed, takenHold],
      let c := card .active 5000 2000 1 none
      let s := holding h c onLine
      lineReady s plain ∧ (heard s).matchHold 1 9 1 = some h ∧ (heard s).findCard 1 = some c) ∧
    lineReady onLine plain ∧ addressed plain hd gh ∧ (heard onLine).matchHold 1 9 1 = none ∧
    (RawBody.free 1 0x1).read = some (.free 1 1) := by decide +kernel

theorem test_CreditReturnsMoney_hypotheses :
    (∀ c ∈ kinds, ∀ y ∈ [none, some ⟨5, 1000, 1⟩, some ⟨4, 1000, 1⟩, some ⟨5, 999, 1⟩],
      let e := entry 9 1 y
      let s := trailed [e] (having c onLine)
      lineReady s plain ∧ (heard s).findTrail 1 = some e ∧ e.redeemer = gh.source ∧ e.serial = 1 ∧
        e.lastCredit = y ∧ (tested s).isSome = true) := by decide +kernel

theorem test_CreditReturnsMoney_other_hypotheses :
    addressed plain hd gh ∧ (heard onLine).findTrail 1 = none ∧ lineReady (trailed [entry 9 1 none] onLine) plain ∧
    (heard (trailed [entry 9 1 none] onLine)).findCard 1 = none ∧
    (heard (trailed [entry 9 1 none] onLine)).findTrail 1 = some (entry 9 1 none) ∧
    (heard (trailed [entry 6 1 none] onLine)).findTrail 1 = some (entry 6 1 none) ∧
    (entry 6 1 none).redeemer ≠ gh.source ∧
    (heard (trailed [entry 9 2 none] onLine)).findTrail 1 = some (entry 9 2 none) ∧ (entry 9 2 none).serial ≠ 1 ∧
    (RawBody.credit 0x1 0x1 0).read = some (.credit 1 1 0) ∧
    (RawBody.credit 0x1 0x1 0x1000).read = some (.credit 1 1 (1500 - 500)) ∧
    (RawBody.credit 0x1 0x1 0x1001).read = some (.credit 1 1 1001) ∧
    plain.cardCeiling - (card .active 9000 0 0 none).balance < 1000 := by decide +kernel

theorem test_ExposureAndComparator_hypotheses :
    let e : PeerEntry := { PeerEntry.fresh 9 with openF := figures 0 30000 0 }
    let low : PeerEntry := { e with openF := figures 0 25000 0, tripped := true }
    e.openF.l.val ≤ totalMax ∧ Total.zero.val ≤ totalMax ∧ ((0 : Nat) : Int) ≤ totalMax ∧ e.tripped = false ∧
      (e.withExposure plain 0).tripped = true ∧ low.tripped = true ∧ (low.withExposure plain 0).tripped = false := by
  decide +kernel

theorem test_MatchingAnswersAreTaken_hypotheses :
    (∀ x ∈ [(ExParams.hold 8000 2500, Body.grant 1 5000 3000 0 5000 none), (.probe, .grant 0 0 0 5000 5000 none),
        (.capture 1 1500, .taken 1 1500 500 1 3500), (.void 1, .freed 2000 5000 5000),
        (.refund 1 1000, .credited 1 1000 0 1 6000), (.capture 1 1500, .refuse 0x12 .holdEnded 0)],
      let s := asking [exchange x.1 .waiting 1] onLine
      lineReady s plain ∧ addressed plain hd gh ∧ (heard s).matchAnswer 9 5 x.2 = some (exchange x.1 .waiting 1)) ∧
    (RawBody.grant 1 0x5000 0x3000 0 0x5000 0).read = some (.grant 1 5000 3000 0 5000 none) ∧
    (RawBody.grant 0 0 0 0x5000 0x5000 0).read = some (.grant 0 0 0 5000 5000 none) ∧
    (RawBody.taken 0x1 0x1500 0x500 0x1 0x3500).read = some (.taken 1 1500 500 1 3500) ∧
    (RawBody.freed 0x2000 0x5000 0x5000).read = some (.freed 2000 5000 5000) ∧
    (RawBody.credited 0x1 0x1000 0 0x1 0x6000).read = some (.credited 1 1000 0 1 6000) ∧
    (RawBody.refuse 0x12 15 0).read = some (.refuse 0x12 .holdEnded 0) := by decide +kernel

/-- The ended list holds an entry of tag 5 at station 9. -/
def ended (kind : ExKind) (ending : Ending) (s : State) : State :=
  inTable (fun t => { t with
    ended := [{ home := 9, tag := 5, kind := kind, internal := false, serial := 1, holdId := some 1, trailNo := some 1,
                ending := ending }] }) s

theorem test_RepeatsAndOrphans_hypotheses :
    (∀ b ∈ [Body.grant 1 5000 3000 0 5000 none, .taken 1 1500 500 1 3500, .freed 2000 5000 5000,
        .credited 1 1000 0 1 6000, .refuse 0x12 .holdEnded 0],
      (heard onLine).matchAnswer 9 5 b = none ∧ (heard onLine).isRepeat 9 5 b = false) ∧
    lineReady onLine plain ∧ addressed plain hd gh ∧
    (∀ x ∈ [(ExKind.hold, Ending.grant, Body.grant 1 5000 3000 0 5000 none), (.capture, .taken, .taken 1 1500 500 1 3500),
        (.void, .freed, .freed 2000 5000 5000), (.refund, .credited, .credited 1 1000 0 1 6000),
        (.capture, .refuse, .refuse 0x12 .holdEnded 0)],
      let s := ended x.1 x.2.1 onLine
      lineReady s plain ∧ (heard s).matchAnswer 9 5 x.2.2 = none ∧ (heard s).isRepeat 9 5 x.2.2 = true) ∧
    onLine.endedHold 9 5 = none ∧
    (let s := ended .hold .noAnswer onLine
     (s.endedHold 9 5).isSome = true ∧ s.voidStands 9 1 = false ∧ s.xt.exchanges.length < 32 ∧
       (asking [{ exchange (.void 1) .queued 0 with internal := true }] s).voidStands 9 1 = true ∧
       32 ≤ (asking (List.replicate 32 (exchange .probe .queued 0)) s).xt.exchanges.length) := by decide +kernel

/-- Which exchange an answer matches: the second of the table, the first being another's. -/
theorem test_MatchingAnswersAreTaken_matching :
    let other := { exchange .probe .queued 0 with tag := 6 }
    let e := exchange (.void 1) .waiting 1
    let s := asking [other, e] onLine
    s.xt.exchanges = [other] ++ e :: [] ∧ other.tag ≠ 5 ∧ e.home = 9 ∧ e.tag = 5 ∧ e.state = .waiting ∧
      s.matchAnswer 9 5 (.freed 2000 5000 5000) = some e ∧ s.matchAnswer 9 7 (.freed 2000 5000 5000) = none := by
  decide +kernel

/-- The latest entry of a home and tag decides, and the latest one of kind HOLD. -/
theorem test_RepeatsAndOrphans_entries :
    let x : EndedEntry :=
      { home := 9, tag := 5, kind := .hold, internal := false, serial := 1, holdId := some 1, trailNo := none,
        ending := .grant }
    let y : EndedEntry := { x with kind := .void, internal := true, ending := .freed }
    let s := inTable (fun t => { t with ended := [x, y] }) onLine
    s.xt.ended = [x] ++ y :: [] ∧ s.xt.ended = [] ++ x :: [y] ∧ y.kind ≠ .hold ∧
      s.isRepeat 9 5 (.freed 2000 5000 5000) = true ∧ s.isRepeat 9 5 (.grant 1 2000 0 0 0 none) = false ∧
      s.endedHold 9 5 = some x ∧ s.voidStands 9 1 = true ∧ s.endedHold 9 6 = none := by decide +kernel

theorem test_AnswersEndAndAreBooked_hypotheses :
    let e := exchange (.capture 1 1500) .waiting 1
    let s := asking [e] onLine
    let sealing := inCycles (fun c => { c with openCycle := 2, sealing := some ⟨1, ⟨250, 10⟩, false⟩ }) s
    e ∈ s.xt.exchanges ∧ e.internal = false ∧ s.tp.results.length < 32 ∧ (∀ x ∈ s.xt.exchanges, x.result = none) ∧
      s.lc.heldLink = none ∧ 1 = s.cc.openCycle ∧ sealing.cc.sealing = some ⟨1, ⟨250, 10⟩, false⟩ ∧
      1 ≠ sealing.cc.openCycle ∧ 3 ≠ sealing.cc.openCycle ∧ 3 ≠ 1 ∧ s.cc.sealing = none := by decide +kernel

/-- An answer to an UNSURE exchange: plain while its UNSURE result is pending, RESOLVED once that has entered. -/
theorem test_answer_to_an_unsure_exchange :
    let told := exchange (.capture 1 1500) .unsure 4
    let untold := { told with result := some ⟨.exchange 5 8 (.capture 1 1500) 9 1 false (.unsure 4), 3⟩ }
    let o : ExOutcome := .refused .holdEnded 0
    let r (resolved : Bool) : ResultRec := .exchange 5 8 (.capture 1 1500) 9 1 resolved o
    let ends (e : Exchange) (s : State) : State := (asking [e] s).endByAnswer e .refuse none none o
    let full := inPort (fun p => { p with results := List.replicate 32 joined }) onLine
    (ends told onLine).tp.results = [r true] ∧ (ends untold onLine).tp.results = [r false] ∧
      (ends untold full).xt.exchanges.map Exchange.result = [some ⟨r false, 0⟩] ∧
      (ends told full).xt.exchanges.map Exchange.result = [some ⟨r true, 0⟩] ∧ 32 ≤ full.tp.results.length ∧
      onLine.lc.tx = .idle ∧ onLine.lc.heldLink = none := by decide +kernel

/-- The header with tag 0, to station 7 and to all. -/
def hd0 : RxHeader := { hd with tag := 0 }
def hdAll : RxHeader := { hd with dest := 0, tag := 0 }

theorem test_TalliesAreSortedAndCompared_hypotheses :
    lineReady onLine plain ∧ fromPeer plain hd0 { gh with tag := 0 } ∧
      (RawBody.tally 0x1 0x100 0x01000000000100 3).read = some (.tally 1 ⟨100, true⟩ ⟨-100, true⟩) ∧
      (let e : PeerEntry := { PeerEntry.fresh 9 with sLast := 2 }
       let cc : Cycles := { Cycles.reset with openCycle := 4, sealing := some ⟨3, ⟨250, 10⟩, false⟩ }
       1 < e.sLast ∧ e.sLast ≤ 2 ∧ 2 < cc.openCycle ∧ 2 < 3 ∧ Total.zero = e.lifeLs ∧ Total.zero = e.lifeRs ∧
         (⟨1, false⟩ : Total) ≠ e.lifeLs ∧ e.sLast ≤ 3 ∧ cc.sealing = some ⟨3, ⟨250, 10⟩, false⟩ ∧ 3 ≤ 3 ∧
         cc.openCycle ≤ 4) := by decide +kernel

theorem test_ChecksAndBeacons_hypotheses :
    let sealed := onLine.modPeer 9 fun e => { e with sLast := 1, tallyOwed := true, standing := .recheck }
    let stranger := stationed .active
    (lineReady onLine plain ∧ fromPeer plain hd0 { gh with tag := 0 } ∧
      fromPeer plain hdAll { gh with dest := 0, tag := 0 } ∧ ((heard onLine).peer 9).sLast = 0 ∧
      lineReady sealed plain ∧ ((heard sealed).peer 9).sLast ≠ 0) ∧
    ((stranger.peer 9).presence ≠ .present ∧ stranger.lc.onLine = true ∧ (onLine.peer 9).presence = .present ∧
      gh.cycle ≤ stranger.cc.openCycle ∧ stranger.cc.openCycle < ({ gh with cycle := 2 } : Header).cycle) ∧
    ((sealed.peer 9).tallyOwed = true ∧ sealed.lc.onLine = true ∧ (sealed.peer 9).presence = .present ∧
      (sealed.wantedMarks 9).tally = false ∧ (sealed.wantedMarks 9).check = false ∧ sealed.lc.requestQ = [] ∧
      (sealed.peer 9).standing = .recheck) ∧
    (onLine.peer 9).tallyOwed = false ∧ (onLine.peer 9).standing ≠ .recheck ∧
    (asking [exchange (.capture 1 1) .unsure 4] onLine).xt.exchanges[0]? = some (exchange (.capture 1 1) .unsure 4) := by
  decide +kernel

theorem test_FrameClash_hypotheses :
    (∀ x ∈ [StationState.offline, .listening, .active, .draining, .withdrawn],
      (stationed x).power = true ∧ (stationed x).tp.settings = some plain ∧ (stationed x).lc.isDriving = false ∧
        (stationed x).lc.station = x) ∧
    readHeader { hd with source := 7 } = some { gh with source := 7 } ∧ plain.station = 7 ∧
    ready.tp.results.length < 32 ∧
    32 ≤ (inPort (fun p => { p with results := List.replicate 32 joined }) ready).tp.results.length := by decide +kernel

theorem test_FramesNotServed_hypotheses :
    readHeader { hd with source := 64 } = none ∧ readHeader { hd with cycle := 0 } = none ∧
      readHeader { hd with senderState := 3 } = none ∧ ready.lc.receives = false ∧ onLine.power = true ∧
      onLine.tp.settings = some plain ∧ onLine.lc.receives = true ∧ onLine.lc.onLine = true ∧
      fromPeer plain hd gh ∧ fromPeer plain { hd with dest := 22 } { gh with dest := 22 } ∧
      fromPeer plain hd gh ∧ (met (stationed .listening)).lc.receives = true ∧
      fromPeer plain hd0 { gh with tag := 0 } ∧ fromPeer plain hdAll { gh with dest := 0, tag := 0 } ∧
      (parseBody 0x10 []).bind RawBody.read = none ∧ (parseBody 0x13 []).bind RawBody.read = none ∧
      ((parseBody 0x21 []).bind RawBody.read).isSome = true ∧ (PeerEntry.fresh 9).protocolCount + 1 ≠ 4 ∧
      onLine.lc.receives = true := by decide +kernel

/-- A body of another length, and bodies refused for a digit, a filler nibble, a sign, a zero number, a pair, a code. -/
theorem test_FramesNotServed_bodies :
    (0x10, 19) ∉ [(0x10, 20)] ∧ parseBody 0x10 (List.replicate 19 0) = none ∧
      parseBody 0x14 [0, 1, 0, 0, 0, 5] = some (.free 1 5) ∧ (RawBody.free 1 5).read = some (.free 1 5) ∧
      (([.free 0 5, .free 1 0, .free 1 0xA, .take 1 5 0x01000000000001, .ask 0x070000000014 0x5000 0x5000,
        .ask 0x07000000001F 0x5000 0x5001, .refuse 0x11 1 0, .refuse 0x10 14 0, .tally 1 0 0 4, .tally 0 0 0 0] :
          List RawBody).all fun x => x.read == none) = true := by decide +kernel

/-- Bits without a beginning, a header cut short, a frame cut short, one with a body length of 41, and one whose CRC
fails. -/
theorem test_FramesNotServed_heard :
    let zeros (n : Nat) : List Byte := List.replicate n 0
    recognise (List.replicate 440 false) = none ∧
      (∀ n ∈ [9, 11, 12], recognise (lineBits (zeros n)) = some ((zeros n).flatMap byteBits)) ∧
      (packBytes ((zeros 9).flatMap byteBits)).length < 10 ∧
      packBytes ((zeros 11).flatMap byteBits) = zeros 9 ++ 0 :: zeros 1 ∧ (zeros 1).length < 2 + (0 : Byte).toNat ∧
      packBytes ((zeros 9 ++ [41]).flatMap byteBits) = zeros 9 ++ 41 :: [] ∧ 40 < (41 : Byte).toNat ∧
      packBytes ((zeros 12).flatMap byteBits) = zeros 10 ++ 0 :: 0 :: [] ∧ 0 * 256 + 0 ≠ (crc16 (zeros 10)).toNat ∧
      [zeros 9 ++ [41], zeros 12, zeros 11].map (fun bs => classifyBits (lineBits bs)) =
        [.oversize, .bad, .fragment] := by decide +kernel

/-- A CHECK to peer 9 in a queue, at an attempt, with its slots drawn; and an answer. -/
def queued (attempt : Nat) (slots : Option Nat) : QFrame := ⟨⟨9, 0, .check⟩, attempt, slots⟩
def reply (attempt : Nat) : QFrame := ⟨⟨9, 5, .refuse 0x12 .draining 0⟩, attempt, some 0⟩

/-- The line has been idle since moment 0. -/
def quiet (answers requests : List QFrame) (last : Option Moment) : State :=
  inLink (fun l => { l with line := ⟨true, 0⟩, answerQ := answers, requestQ := requests, lastRequest := last }) onLine

theorem test_LineAndStarts_hypotheses :
    ready.power = true ∧ ready.lc.line = ⟨false, 0⟩ ∧ ready.lc.tx = .idle ∧ ready.lc.line.since + 24 ≤ max ready.now 24 ∧
      max ready.now 23 < ready.lc.line.since + 24 ∧
      (∀ s ∈ [quiet [reply 1] [] none, quiet [] [queued 1 (some 1)] none, quiet [] [queued 1 (some 1)] (some 0)],
        s.power = true ∧ s.tp.settings = some plain ∧ s.lc.onLine = true ∧ s.lc.line.idle = true ∧ s.lc.tx = .idle ∧
          s.lc.line.since = 0 ∧ s.now = 0) ∧
      0 + 32 + 0 * 40 ≤ max 0 32 ∧ 0 + 80 + 1 * 40 ≤ max 0 120 ∧ 0 + plain.requestSpacing * 1000 ≤ max 0 1000 ∧
      max 0 999 < 0 + plain.requestSpacing * 1000 := by decide +kernel

/-- Where no frame starts: a gap, slots or a spacing not over, an empty queue, a request behind an answer that may start,
no request start to count from. -/
theorem test_starts_held_back :
    let r := queued 1 (some 1)
    let held (i : Instr) (s : State) : Bool := after i s fun t => t.lc.tx == .idle
    held (.answerStart 31) (quiet [reply 1] [] none) = true ∧ held (.answerStart 32) (quiet [reply 1] [] none) = false ∧
      held (.answerStart 500) (quiet [] [r] none) = true ∧ held (.requestStart 119) (quiet [] [r] none) = true ∧
      held (.requestStart 120) (quiet [] [r] none) = false ∧ held (.requestStart 500) (quiet [] [] none) = true ∧
      held (.requestStart 500) (quiet [reply 1] [r] none) = true ∧ held (.spacingExpiry 500) (quiet [] [r] none) = true ∧
      held (.spacingExpiry 999) (quiet [] [r] (some 0)) = true ∧
      held (.spacingExpiry 1000) (quiet [] [r] (some 0)) = false ∧ (quiet [] [r] none).lc.lastRequest = none ∧
      State.reset.tp.settings = none := by decide +kernel

theorem test_CollisionsAndSentFrames_hypotheses :
    (∀ n ∈ [9, 10],
      let a := driving true (quiet [reply n] [] none)
      let r := driving false (quiet [] [queued n (some 0)] none)
      a.power = true ∧ a.lc.tx = .driving true (List.replicate 12 0) 0 ∧ a.lc.answerQ = [reply n] ∧ r.power = true ∧
        r.lc.tx = .driving false (List.replicate 12 0) 0 ∧ r.lc.requestQ = [queued n (some 0)]) ∧
    (let last := 0 + (24 + 8 * (List.replicate 12 (0 : Byte)).length) * 2
     max ready.now 240 = last ∧ last < max ready.now 241 ∧ max ready.now 239 < last) ∧ ready.lc.tx = .idle ∧
    Body.ofExchange (.take 1 1 1500) = true := by decide +kernel

theorem test_QueuesFillInOrder_hypotheses :
    let full := quiet (List.replicate 16 (reply 1)) (List.replicate 16 (queued 1 (some 0))) none
    let marked := (onLine.modPeer 9 fun e => { e with sLast := 1 }).modWanted 9 fun m =>
      { m with tally := true, check := true }
    full.lc.requestQ.length = 16 ∧ 16 ≤ full.lc.answerQ.length ∧ onLine.lc.answerQ.length < 16 ∧
      onLine.lc.onLine = true ∧ ready.lc.onLine = false ∧ onLine.lc.requestQ.length < 16 ∧
      onLine.lc.heldBeacon = false ∧ (inLink (fun l => { l with heldBeacon := true }) onLine).lc.heldBeacon = true ∧
      (queued 1 none).slots = none ∧ (queued 1 (some 0)).slots ≠ none ∧
      marked.lc.wanted =
        marked.lc.wanted.take 8 ++ ⟨9, true, true⟩ :: marked.lc.wanted.drop 9 ∧
      (∀ x ∈ marked.lc.wanted.take 8, x.tally = false ∧ x.check = false) ∧ (marked.peer 9).sLast ≠ 0 ∧
      (∀ m ∈ onLine.lc.wanted, m.tally = false ∧ m.check = false) ∧
      (asking [exchange .probe .queued 0] onLine).xt.exchanges = [] ++ exchange .probe .queued 0 :: [] ∧
      onLine.lc.requestQ = [] ∧ onLine.xt.exchanges = [] ∧ onLine.fillOne = none ∧ marked.fillOne.isSome = true ∧
      marked.fillRequests.lc.requestQ.length = 2 := by decide +kernel

theorem test_LinkTimers_hypotheses :
    let s := inLink (fun l => { l with
      beaconAt := some 950000, listenEnd := some 2000000, sendFailed := some 1000000, answerDropped := some 1000000 })
      (stationed .listening)
    s.power = true ∧ s.lc.beaconAt = some 950000 ∧ 950000 ≤ max s.now 950000 ∧ max s.now 949999 < 950000 ∧
      s.lc.station = .listening ∧ s.lc.listenEnd = some 2000000 ∧ s.lc.sendFailed = some 1000000 ∧
      s.lc.answerDropped = some 1000000 ∧ onLine.lc.sendFailed = none ∧ onLine.lc.answerDropped = none ∧
      onLine.lc.station ≠ .listening ∧ onLine.lc.requestQ.length < 16 ∧
      16 ≤ (quiet [] (List.replicate 16 (queued 1 (some 0))) none).lc.requestQ.length ∧
      (onLine.peer 9).presence = .present ∧ (onLine.peer 9).lastHeard = some 5000000 ∧
      (ready.peer 9).presence ≠ .present := by decide +kernel

/-- Station 7 in a phase of cycle 2, cycle 1 being sealed. -/
def phase (x : Phase) (s : State) : State :=
  (inCards (fun t => { t with sealOwn := some .zero, cursor := if x = .sweeping then some 0 else none })
    (inCycles (fun c => { c with
      openCycle := 2, phase := x, sealing := some ⟨1, ⟨250, 10⟩, false⟩,
      sealTimer := if x = .deferred then none else some 30000000 }) s)).modPeers fun e =>
    if e.peer = 7 then e else { e with sealF := some .zero }

/-- A statement in a slot. -/
def slot (no : SlotNo) (kind : StatementKind) : Slot :=
  ⟨no, { (source [⟨9, figures 1 0 1⟩]).build 1 with kind := kind }⟩

/-- These statements stand in the slots. -/
def stored (l : List Slot) (s : State) : State := inSlots (fun u => { u with slots := l }) s

/-- Two SEAL statements. -/
def bothSealed : List Slot := [slot .one .sealed, slot .two .sealed]

theorem test_ClosesAreMade_hypotheses :
    (∀ x ∈ [Phase.sweeping, .sealing, .deferred], ∀ l ∈ [[], bothSealed],
      let s := stored l (phase x onLine)
      tillReady s plain ∧ s.cc.openCycle < 999999 ∧ s.cc.phase = x ∧ (s.su.grantSlot = none ↔ l = bothSealed) ∧
        s.lc.receives = true ∧ fromPeer plain { hd with dest := 22, cycle := 0x3 } { gh with dest := 22, cycle := 3 } ∧
        s.cc.openCycle < 3) ∧
    tillReady ready plain ∧ ready.cc.phase = .steady ∧
    999999 ≤ (inCycles (fun c => { c with openCycle := 999999 }) ready).cc.openCycle ∧
    (inCycles (fun c => { c with pendingTarget := some 5 }) ready).cc.pendingTarget = some 5 ∧
    (having (card .active 0 0 0 none) ready).ct.cards ≠ [] ∧ ready.ct.cards = [] ∧
    (let l : List Staged := [⟨2, ⟨1, 1⟩⟩, ⟨3, ⟨2, 2⟩⟩]
     l = [] ++ ⟨2, ⟨1, 1⟩⟩ :: [⟨3, ⟨2, 2⟩⟩] ∧ 2 ≤ 2 ∧ (∀ e ∈ [(⟨3, ⟨2, 2⟩⟩ : Staged)], 2 < e.effective) ∧
       ∀ e ∈ l, 1 < e.effective) := by decide +kernel

theorem test_SweepStepExaminesARecord_hypotheses :
    let a := card .active 5000 0 0 (some 2)
    let b : Card := { a with serial := 2 }
    let s := inCards (fun t => { t with cards := [a, b] }) (phase .sweeping ready)
    let last := inCards (fun t => { t with cursor := some 1 }) s
    let done := inCards (fun t => { t with cursor := some 2 }) s
    s.power = true ∧ s.tp.settings = some plain ∧ s.cc.phase = .sweeping ∧ s.ct.cursor = some 0 ∧
      s.ct.cards = [] ++ a :: [b] ∧ 0 < a.serial ∧ (∃ x ∈ s.ct.cards, a.serial < x.serial) ∧
      last.ct.cursor = some 1 ∧ last.ct.cards = [a] ++ b :: [] ∧ (∀ x ∈ [a], x.serial ≤ 1) ∧ 1 < b.serial ∧
      (∀ x ∈ last.ct.cards, x.serial ≤ b.serial) ∧ done.ct.cursor = some 2 ∧ (∀ c ∈ done.ct.cards, c.serial ≤ 2) ∧
      a.sweepMark ≠ s.cc.openCycle ∧ a.due s.cc.openCycle = true ∧ a.openHolds = 0 ∧
      ({ a with sweepMark := 2 } : Card).sweepMark = s.cc.openCycle ∧
      plain.retention < s.cc.openCycle ∧ (card .closed 0 0 0 none).lastChange + plain.retention ≤ s.cc.openCycle ∧
      s.cc.openCycle < ({ card .lapsed 0 0 0 none with lastChange := 2 } : Card).lastChange + plain.retention ∧
      (card .frozen 0 0 0 (some 3)).due s.cc.openCycle = false ∧ s.cc.pendingTarget = none ∧ s.cc.sealTimer ≠ none := by
  decide +kernel

theorem test_SealsAreMade_hypotheses :
    (∀ x ∈ [Phase.sweeping, .sealing], ∀ u ∈ [none, some 5],
      let s := inCycles (fun c => { c with pendingTarget := u }) (phase x ready)
      s.power = true ∧ s.tp.settings = some plain ∧ s.cc.phase = x ∧ s.cc.sealTimer = some 30000000 ∧
        s.cc.pendingTarget = u ∧ max s.now 30000000 = 30000000 ∧ max s.now 29999999 < 30000000) ∧
    (phase .sealing ready).ct.cursor = none ∧ (phase .sweeping ready).ct.cursor ≠ none ∧
    (phase .deferred ready).cc.phase = .deferred ∧ (phase .deferred ready).cc.sealTimer = none ∧
    (phase .deferred ready).cc.sealing = some ⟨1, ⟨250, 10⟩, false⟩ ∧ ready.cc.phase = .steady ∧
    (∀ x ∈ bothSealed, x.statement.kind = .sealed) ∧ (stored bothSealed ready).su.grantSlot = none ∧
    (stored [slot .one .sealed] ready).su.grantSlot = some .two ∧
    [slot .two .sealed, slot .one .report] = [slot .two .sealed] ++ slot .one .report :: [] ∧
    (∀ y ∈ [slot .two .sealed], y.statement.kind = .sealed) ∧ (slot .one .report).statement.kind = .report ∧
    (stored [slot .two .sealed, slot .one .report] ready).su.grantSlot = some .one := by decide +kernel

theorem test_SealCompletionSettles_hypotheses :
    let cc : Cycles := { Cycles.reset with openCycle := 4 }
    ∀ n ∈ [1, 2, 3, 4],
      let e : PeerEntry := { PeerEntry.fresh 9 with sLast := 2, pendingTally := some ⟨n, .zero, .zero⟩ }
      e.pendingTally = some ⟨n, .zero, .zero⟩ ∧ (n < e.sLast ↔ n = 1) ∧ (cc.openCycle ≤ n ↔ n = 4) ∧
        cc.sealing = none := by decide

theorem test_StatementsAreBuilt_hypotheses :
    let c : Chain := ⟨999999999999, false, false⟩
    (∀ i, i < 3 → overflows (([⟨999999999999, false⟩, ⟨-1, true⟩] : List Total).take i |>.map Total.val).sum = false) ∧
      (∀ i, 3 ≤ i → ([⟨999999999999, false⟩, ⟨-1, true⟩] : List Total).take i = [⟨999999999999, false⟩, ⟨-1, true⟩]) ∧
      c.stuck = false ∧ overflows (c.val + -1) = false ∧ 999999999999 < c.val + 1 ∧
      (-999999999999 : Int) + -1 < -999999999999 ∧ (c.add ⟨1, false⟩).stuck = true := by
  refine ⟨by decide, fun i h => List.take_of_length_le (by simpa using by omega), by decide, by decide, by decide, by decide,
    by decide⟩

/-- K at its limit is unmarked, above it held and marked; an unmarked statement is not flagged. -/
theorem test_statement_counts_and_flag :
    let x := (source [⟨5, figures 1 0 999999⟩]).build 1
    let y := (source [⟨5, figures 1 0 999999⟩, ⟨6, figures 1 0 1⟩]).build 1
    x.k = ⟨999999, false⟩ ∧ x.saturated = false ∧ y.k = ⟨999999, true⟩ ∧ y.saturated = true := by decide +kernel

/-- A net marked by a marked figure below the limit: the net keeps its value, the amount due is the limit (log 44). -/
theorem test_amount_due_of_a_marked_net :
    let x := (source [⟨5, { figures 100 0 1 with r := ⟨100, true⟩ }⟩]).build 1
    let y := (source [⟨5, figures 100 0 1⟩]).build 1
    x.n.mark = true ∧ x.n.val < 100 ∧ x.amountDue = 999999999999 ∧ y.n.mark = false ∧ y.amountDue = y.n.val.natAbs := by
  decide +kernel

theorem test_ReportsAndReads_hypotheses :
    (∀ k ∈ [0, 1],
      let s := inSlots (fun u => { u with readPos := k }) (stored [slot .one .sealed] ready)
      tillReady s plain ∧ s.su.slots = slot .one .sealed :: [] ∧ s.su.readPos = k ∧
        (slot .one .sealed).statement.lines.length = 1 ∧ s.su.grantSlot = some .two) ∧
    ready.su.slots = [] ∧ (stored bothSealed ready).su.grantSlot = none ∧ tillReady (stored bothSealed ready) plain ∧
    (phase .deferred ready).cc.phase = .deferred ∧ (phase .deferred ready).su.grantSlot = some .one ∧
    (∀ z, (stored [slot .one .report, slot .two .sealed] ready).su.slots.head? = some z → z.no ≠ .two) ∧
    ∀ z, (stored [slot .one .report, slot .two .sealed] ready).su.slots.head? = some z → z.no = .one := by
  refine ⟨by decide +kernel, by decide, by decide +kernel, by decide +kernel, by decide, by decide +kernel, ?_, ?_⟩ <;>
    intro z h <;> cases h <;> decide

theorem test_SetRateStages_hypotheses :
    (∀ l ∈ [[], [(⟨4, ⟨1, 1⟩⟩ : Staged)], [⟨4, ⟨1, 1⟩⟩, ⟨6, ⟨2, 2⟩⟩]],
      let s := inCycles (fun c => { c with schedule := l }) ready
      tillReady s plain ∧ s.cc.schedule = l ∧ s.cc.openCycle = 1) ∧
    (∀ x ∈ [(0, 0), (1, 1), (2, 2), (3, 3), (4, 4), (5, 5), (6, 6)], readCycle (.ofNat 24 x.1) = some x.2) ∧
    (1500 : BitVec 16).toNat ≤ 1500 ∧ 1500 < (1501 : BitVec 16).toNat ∧ (99 : BitVec 8).toNat ≤ 99 ∧
    99 < (100 : BitVec 8).toNat := by decide +kernel

theorem test_PeersAndMonitorAtTheTill_hypotheses :
    (∀ x ∈ [Standing.good, .watch, .barred, .recheck],
      let s := onLine.modPeer 9 fun e => { e with standing := x }
      tillReady s plain ∧ (s.peer 9).standing = x) ∧
    (0 : BitVec 8).toNat = 0 ∧ 63 < (64 : BitVec 8).toNat ∧ (7 : BitVec 8).toNat = plain.station ∧
    1 ≤ (1 : BitVec 8).toNat ∧ (63 : BitVec 8).toNat ≤ 63 ∧ (63 : BitVec 8).toNat ≠ plain.station ∧
    readSigned 0x01999999999999 = some (-999999999999) ∧ readSigned 0x0000000000000A = none ∧
    State.reset.power = true ∧ State.reset.tp.state = .idle := by decide +kernel

/-- The oldest statement of STATUS after its flag. -/
theorem test_oldest_statement_values :
    ready.su.oldestValues = [.flag false, .num1 0, .num2 0] ∧
      (stored [slot .one .report, slot .two .sealed] ready).su.oldestValues =
        [.flag true, .num1 2, .num2 (slot .one .report).statement.number] := by decide +kernel

theorem test_StartsAndSupplies_hypotheses :
    let off := { ready with power := false }
    let held := holding (hold 7 none .held) (card .active 5000 2000 1 none) ready
    off.power = false ∧ off.retention = true ∧ ({ off with retention := false } : State).retention = false ∧
      ready.power = true ∧ ready.tp.state = .idle ∧ ready.tp.settings = some plain ∧
      (inCards (fun t => { t with float := -1 }) ready).ct.float ≠ 0 ∧ ready.ct.float = 0 ∧ held.ct.float = 0 ∧
      held.ht.openCount ≠ 0 ∧ ready.ht.openCount = 0 ∧ (asking [exchange .probe .done 1] ready).xt.exchanges ≠ [] ∧
      ready.xt.exchanges = [] ∧ (phase .sealing ready).cc.phase ≠ .steady ∧ ready.cc.phase = .steady ∧
      (stored bothSealed ready).su.slots ≠ [] ∧ ready.su.slots = [] := by decide +kernel

/-- The exchanges by their kinds when they are set aside: HOLD ends, CAPTURE becomes UNSURE, UNSURE and DONE stay, an
internal VOID leaves. -/
theorem test_exchanges_set_aside :
    let l : List Exchange :=
      [exchange (.hold 8000 2500) .queued 0, { exchange (.capture 1 1500) .waiting 1 with tag := 6 },
       { exchange (.refund 1 1000) .unsure 4 with tag := 7, resendWanted := true },
       { exchange .probe .done 1 with tag := 8 }, { exchange (.void 1) .waiting 1 with tag := 9, internal := true }]
    (asideExchanges 3 l).map (fun e => (e.tag, e.state, e.resendWanted, e.result.map Waiting.place)) =
        [(5, .done, false, some 3), (6, .unsure, false, some 4), (7, .unsure, false, none), (8, .done, false, none)] ∧
      (asideEnded l).map EndedEntry.tag = [5, 9] ∧ asideResults l = 2 := by decide +kernel

theorem test_FramesReadBack_hypotheses :
    Body.fitsFields .beacon ∧ Body.fitsFields (.ask 63 99999999 999999999999 999999999999) ∧
      Body.fitsFields (.refuse 0x16 .malformed 999999999999) ∧
      Body.fitsFields (.tally 999999 ⟨-999999999999, true⟩ ⟨999999999999, false⟩) ∧
      Body.fitsFields (.take 65535 1 0) ∧ (lineBits [0xB3])[24 + 8 * 0 + 7]? = some true := by
  simp only [Body.fitsFields, amountFits]; decide

theorem test_SharedOperationsFrames_hypotheses :
    let l : List EndedEntry := List.replicate 65 ⟨9, 1, .probe, false, 1, none, none, .noAnswer⟩
    (l.take 64).length ≤ 64 ∧ l = l.take 1 ++ l.drop 1 ∧ (l.drop 1).length = 64 ∧
      (ready.pt.find? fun e => e.peer == 9) = some (PeerEntry.fresh 9) ∧
      (ready.ht.peerHeld.find? fun x => x.peer == 9) = some ⟨9, 0⟩ ∧
      (ready.lc.wanted.find? fun m => m.peer == 9) = some ⟨9, false, false⟩ := by decide +kernel

theorem test_invariants_hypotheses :
    floatBalanced ready ∧ sealingWhole ready ∧ withinRoom ready ∧ step ready = .next ready ∧
      ∃ t, step { ready with pending := [.issue 0 5 0x5000 3] } = .next t := by
  refine ⟨fun _ _ _ _ _ => rfl, ?_, ?_, rfl, _, rfl⟩
  · refine ⟨by decide, by decide, fun e he => ?_, nofun, by decide, nofun, fun _ => rfl, fun _ => rfl⟩
    revert e; decide +kernel
  · refine ⟨by decide, by decide, by decide, by decide, by decide, by decide, by decide, by decide, by decide, by decide,
      List.Pairwise.nil, by decide, ?_, nofun⟩
    intro st h; cases h; decide

theorem test_tablesAgree_hypothesis : tablesAgree ready := by
  refine ⟨List.Pairwise.nil, nofun, nofun, nofun, List.Pairwise.nil, nofun, by decide, by decide, List.Pairwise.nil,
    ?_, by decide, by decide, ?_, ?_, nofun⟩
  · intro i; simp [ready, State.reset, HoldTable.reset]
  · decide +kernel
  · intro st h; cases h; decide

end Sys2Proof.Tests
end

section
/-! The float (R28): every operation of the part keeps it equal to what the lifetime own-card totals say. -/

namespace Sys2Proof.Machine

/-- Going from `s` to `t` keeps the float equal to what the lifetime own-card totals say (R28). -/
def KeepsFloat (s t : State) : Prop := floatBalanced s → floatBalanced t

theorem KeepsFloat.refl (s : State) : KeepsFloat s s := id

theorem KeepsFloat.trans {s t u : State} (h : KeepsFloat s t) (g : KeepsFloat t u) : KeepsFloat s u := g ∘ h

theorem KeepsFloat.ite {s t u : State} {c : Prop} [Decidable c] (h : KeepsFloat s t) (g : KeepsFloat s u) :
    KeepsFloat s (if c then t else u) := by
  split
  · exact h
  · exact g

/-- An operation that changes neither the float nor a lifetime total. -/
theorem KeepsFloat.of_same {s t : State} (hf : t.ct.float = s.ct.float) (hl : t.ct.life = s.ct.life) :
    KeepsFloat s t := by
  intro h
  unfold floatBalanced
  rw [hf, hl]
  exact h

/-- An operation that does not touch the money of the Card Table. -/
theorem KeepsFloat.of_changes {ps : List Part} {s t : State} (h : ChangesOnly ps s t) (hm : .money ∉ ps) :
    KeepsFloat s t := by
  have e : (t.ct.float, t.ct.life, t.ct.openOwn, t.ct.sealOwn) =
      (s.ct.float, s.ct.life, s.ct.openOwn, s.ct.sealOwn) := h .money hm
  exact .of_same (congrArg Prod.fst e) (congrArg (fun x => x.2.1) e)

/-- A total that carries no mark after an accumulation had none before, and took the amount exactly (R4, note 1). -/
theorem Total.acc_unmarked {t : Total} {x : Int} (h : (t.acc x).mark = false) :
    t.mark = false ∧ (t.acc x).val = t.val + x := by
  cases hm : t.mark
  · rw [Total.acc, if_neg (by simp [hm])] at h ⊢
    simp only [overflows, Bool.or_eq_false_iff, decide_eq_false_iff_not] at h
    exact ⟨rfl, by simp only [saturate, if_neg h.1, if_neg h.2]⟩
  · simp [Total.acc, hm] at h

/-! ### The five bookings of R28 -/

theorem State.lapseCard_keepsFloat (s : State) (c : Card) : KeepsFloat s (s.lapseCard c) := by
  intro h hl hc hr hq hx
  obtain ⟨hm, hv⟩ := Total.acc_unmarked (t := s.ct.life.lapses) hq
  have := h hl hc hr hm hx
  change s.ct.float - c.balance = s.ct.life.loads.val - s.ct.life.captures.val + s.ct.life.refunds.val -
    (s.ct.life.lapses.acc c.balance).val - s.ct.life.cashouts.val
  omega

theorem State.cardCapture_keepsFloat (s : State) (n x a : Nat) (b : Bool) : KeepsFloat s (s.cardCapture n x a b) := by
  intro h hl hc hr hq hx
  obtain ⟨hm, hv⟩ := Total.acc_unmarked (t := s.ct.life.captures) hc
  have := h hl hm hr hq hx
  change s.ct.float - x = s.ct.life.loads.val - (s.ct.life.captures.acc x).val + s.ct.life.refunds.val -
    s.ct.life.lapses.val - s.ct.life.cashouts.val
  omega

theorem State.cardRefund_keepsFloat (s : State) (n f : Nat) (b : Bool) : KeepsFloat s (s.cardRefund n f b) := by
  intro h hl hc hr hq hx
  obtain ⟨hm, hv⟩ := Total.acc_unmarked (t := s.ct.life.refunds) hr
  have := h hl hc hm hq hx
  change s.ct.float + f = s.ct.life.loads.val - s.ct.life.captures.val + (s.ct.life.refunds.acc f).val -
    s.ct.life.lapses.val - s.ct.life.cashouts.val
  omega

theorem State.floatIn_keepsFloat (s : State) (a : Nat) : KeepsFloat s (s.floatIn a) := by
  intro h hl hc hr hq hx
  obtain ⟨hm, hv⟩ := Total.acc_unmarked (t := s.ct.life.loads) hl
  have := h hm hc hr hq hx
  change s.ct.float + a = (s.ct.life.loads.acc a).val - s.ct.life.captures.val + s.ct.life.refunds.val -
    s.ct.life.lapses.val - s.ct.life.cashouts.val
  omega

theorem State.cashoutCard_keepsFloat (s : State) (c : Card) : KeepsFloat s (s.cashoutCard c).1 := by
  intro h hl hc hr hq hx
  obtain ⟨hm, hv⟩ := Total.acc_unmarked (t := s.ct.life.cashouts) hx
  have := h hl hc hr hq hm
  change s.ct.float - c.balance = s.ct.life.loads.val - s.ct.life.captures.val + s.ct.life.refunds.val -
    s.ct.life.lapses.val - (s.ct.life.cashouts.acc c.balance).val
  omega

/-- A cold start leaves no float and no total (R187). -/
theorem State.coldStart_keepsFloat (s : State) : KeepsFloat s s.coldStart := fun _ _ _ _ _ _ => rfl

/-! ### Card Table (Cards.lean) -/

theorem State.lapseIfDue_keepsFloat (s : State) (n : Nat) : KeepsFloat s (s.lapseIfDue n) := by
  unfold State.lapseIfDue
  split
  · exact .ite (s.lapseCard_keepsFloat _) (.refl _)
  · exact .refl _

theorem State.issue_keepsFloat (s : State) (st : Settings) (a v : Nat) : KeepsFloat s (s.issue st a v).1 := by
  unfold State.issue
  split; · exact .refl _
  split; · exact .refl _
  split; · exact .refl _
  split; · exact .refl _
  split
  · exact .refl _
  · refine KeepsFloat.trans ?_ (State.floatIn_keepsFloat _ a)
    exact .of_same rfl rfl

/-- The access test of a till command, then the command's own part on the record. -/
theorem State.onCard_keepsFloat (s : State) (n : Nat) (f : State → Card → State × Reply)
    (h : ∀ s c, KeepsFloat s (f s c).1) : KeepsFloat s (s.onCard n f).1 := by
  unfold State.onCard
  split
  · exact .refl _
  · dsimp only
    split
    · exact s.lapseIfDue_keepsFloat n
    · exact (s.lapseIfDue_keepsFloat n).trans (h _ _)

theorem State.load_keepsFloat (s : State) (st : Settings) (n a : Nat) : KeepsFloat s (s.load st n a).1 := by
  refine s.onCard_keepsFloat n _ fun s c => ?_
  split; · exact .refl _
  split; · exact .refl _
  split
  · exact .refl _
  · exact .refl _
  · exact .refl _
  · split; · exact .refl _
    split; · exact .refl _
    exact (KeepsFloat.of_changes (s.modCard_changes _ _) (by decide)).trans (State.floatIn_keepsFloat _ a)

theorem State.cashout_keepsFloat (s : State) (n : Nat) : KeepsFloat s (s.cashout n).1 := by
  refine s.onCard_keepsFloat n _ fun s c => ?_
  split; · exact .refl _
  split; · exact .refl _
  split; · exact .refl _
  exact s.cashoutCard_keepsFloat c

theorem State.setFrozen_keepsFloat (s : State) (n : Nat) (g : CardState) : KeepsFloat s (s.setFrozen n g).1 := by
  refine s.onCard_keepsFloat n _ fun s c => ?_
  split; · exact .refl _
  split; · exact .refl _
  split; · exact .refl _
  exact .of_changes (s.modCard_changes _ _) (by decide)

theorem State.enquireOwn_keepsFloat (s : State) (n : Nat) : KeepsFloat s (s.enquireOwn n).1 :=
  s.onCard_keepsFloat n _ fun s _ => .refl s

theorem State.examine_keepsFloat (s : State) (st : Settings) (c : Card) : KeepsFloat s (s.examine st c) := by
  unfold State.examine
  dsimp only
  split; · exact .refl _
  split; · exact s.lapseCard_keepsFloat c
  split
  · exact .of_same rfl rfl
  · exact .of_changes (s.modCard_changes _ _) (by decide)

/-! ### Hold Table and Capture Trail (Holds.lean) -/

theorem State.grantOn_keepsFloat (s : State) (st : Settings) (asker : Nat) (askTag : Option Nat) (c : Card)
    (asked least : Nat) : KeepsFloat s (s.grantOn st asker askTag c asked least).1 := by
  unfold State.grantOn
  split; · exact .refl _
  split
  · exact .refl _
  · exact .refl _
  · split
    · exact .refl _
    · rename_i hcell
      exact (KeepsFloat.of_changes (s.takeCell_changes _ st hcell) (by decide)).trans
        (.of_changes (State.makeHold_changes _ _ _ _ _ _ _ _) (by decide))

theorem State.requestHold_keepsFloat (s : State) (st : Settings) (asker : Nat) (askTag : Option Nat)
    (home serial asked least : Nat) : KeepsFloat s (s.requestHold st asker askTag home serial asked least).1 := by
  unfold State.requestHold
  split; · exact .refl _
  split; · exact .refl _
  refine KeepsFloat.trans (s.lapseIfDue_keepsFloat serial) ?_
  dsimp only
  split; · exact .refl _
  split; · exact .refl _
  split; · exact .refl _
  exact State.grantOn_keepsFloat _ _ _ _ _ _ _

theorem State.serveAsk_keepsFloat (s : State) (st : Settings) (asker tag home serial asked least : Nat) :
    KeepsFloat s (s.serveAsk st asker tag home serial asked least).1 := by
  unfold State.serveAsk
  split; · exact .refl _
  split; · exact .refl _
  split; · exact .refl _
  split; · exact .refl _
  split
  · split
    · exact .refl _
    · exact .of_changes (s.protocolFault_changes _) (by decide)
  · exact s.requestHold_keepsFloat _ _ _ _ _ _ _

theorem State.authorizeOwn_keepsFloat (s : State) (st : Settings) (serial asked least : Nat) :
    KeepsFloat s (s.authorizeOwn st serial asked least).1 := by
  unfold State.authorizeOwn
  split; · exact .refl _
  split; · exact .refl _
  exact s.requestHold_keepsFloat _ _ _ _ _ _ _

theorem State.captureHold_keepsFloat (s : State) (st : Settings) (h : Hold) (room : List TrailEntry)
    (tag : Option Nat) (x : Nat) : KeepsFloat s (s.captureHold st h room tag x) := by
  unfold State.captureHold
  dsimp only
  have booked : KeepsFloat s (((s.trailMake room h.serial h.asker tag x).cardCapture h.serial x h.amount
      (!(h.asker != st.station))).endHold st h fun y => y.capture tag x s.tr.nextNumber s.cc.openCycle) :=
    ((KeepsFloat.of_changes (s.trailMake_changes _ _ _ _ _) (by decide)).trans
      (State.cardCapture_keepsFloat _ _ _ _ _)).trans (.of_changes (State.endHold_changes _ _ _ _) (by decide))
  exact .ite (booked.trans (.of_changes (State.bookLiability_changes _ _ _ _) (by decide))) booked

theorem State.captureOpen_keepsFloat (s : State) (st : Settings) (h : Hold) (tag : Option Nat) (x : Nat) :
    KeepsFloat s (s.captureOpen st h tag x).1 := by
  unfold State.captureOpen
  split; · exact .refl _
  split
  · exact .refl _
  · exact (s.captureHold_keepsFloat _ _ _ _ _).trans (State.lapseIfDue_keepsFloat _ _)

theorem State.serveTake_keepsFloat (s : State) (st : Settings) (asker tag id serial x : Nat) :
    KeepsFloat s (s.serveTake st asker tag id serial x).1 := by
  unfold State.serveTake
  split
  · split
    · exact s.captureOpen_keepsFloat _ _ _ _
    · split
      · exact s.lapseIfDue_keepsFloat _
      · exact .refl _
    · exact .refl _
    · exact .refl _
  · split
    · exact s.lapseIfDue_keepsFloat _
    · exact .refl _

theorem State.captureOwn_keepsFloat (s : State) (st : Settings) (serial id x : Nat) :
    KeepsFloat s (s.captureOwn st serial id x).1 := by
  unfold State.captureOwn
  split; · exact .refl _
  split
  · exact s.captureOpen_keepsFloat _ _ _ _
  · exact .refl _

theorem State.freeHold_keepsFloat (s : State) (st : Settings) (asker id serial : Nat) :
    KeepsFloat s (s.freeHold st asker id serial).1 := by
  unfold State.freeHold
  split; · exact .refl _
  split
  · exact (KeepsFloat.of_changes (s.releaseHold_changes _ _ _) (by decide)).trans (State.lapseIfDue_keepsFloat _ _)
  · exact s.lapseIfDue_keepsFloat _
  · exact s.lapseIfDue_keepsFloat _
  · exact .refl _

theorem State.holdDeadline_keepsFloat (s : State) (st : Settings) (id : Nat) :
    KeepsFloat s (s.holdDeadline st id) := by
  unfold State.holdDeadline
  split; · exact .refl _
  split
  · exact .ite ((KeepsFloat.of_changes (s.releaseHold_changes _ _ _) (by decide)).trans
      (State.lapseIfDue_keepsFloat _ _)) (.refl _)
  · exact .refl _

theorem State.applyRefund_keepsFloat (s : State) (st : Settings) (e : TrailEntry) (f : Nat) (tag : Option Nat) :
    KeepsFloat s (s.applyRefund st e f tag) := by
  unfold State.applyRefund
  dsimp only
  have booked : KeepsFloat s ((s.modTrail e.number fun e => e.refund f tag s.cc.openCycle).cardRefund e.serial f
      (!(e.redeemer != st.station))) :=
    (KeepsFloat.of_changes (s.modTrail_changes _ _) (by decide)).trans (State.cardRefund_keepsFloat _ _ _ _)
  exact .ite (booked.trans (.of_changes (State.bookLiability_changes _ _ _ _) (by decide))) booked

theorem State.refundOn_keepsFloat (s : State) (st : Settings) (e : TrailEntry) (f : Nat) (tag : Option Nat) :
    KeepsFloat s (s.refundOn st e f tag).1 := by
  unfold State.refundOn
  split; · exact .refl _
  split; · exact .refl _
  refine KeepsFloat.trans (s.lapseIfDue_keepsFloat e.serial) ?_
  dsimp only
  split; · exact .refl _
  split; · exact .refl _
  split; · exact .refl _
  split; · exact .refl _
  split; · exact .refl _
  exact State.applyRefund_keepsFloat _ _ _ _ _

theorem State.serveCredit_keepsFloat (s : State) (st : Settings) (source tag serial number f : Nat) :
    KeepsFloat s (s.serveCredit st source tag serial number f).1 := by
  unfold State.serveCredit
  split; · exact .refl _
  split; · exact .refl _
  split; · exact .refl _
  split
  · split
    · exact s.lapseIfDue_keepsFloat _
    · exact s.refundOn_keepsFloat _ _ _ _
  · exact s.refundOn_keepsFloat _ _ _ _

theorem State.refundOwn_keepsFloat (s : State) (st : Settings) (serial number f : Nat) :
    KeepsFloat s (s.refundOwn st serial number f).1 := by
  unfold State.refundOwn
  split; · exact .refl _
  split; · exact .refl _
  split; · exact .refl _
  exact s.refundOn_keepsFloat _ _ _ _

/-! ### Closes and seals (Cycles.lean): the own totals move, float and lifetime totals stand -/

theorem State.closeAt_keepsFloat (s : State) (st : Settings) (t : Nat) : KeepsFloat s (s.closeAt st t) := by
  unfold State.closeAt
  refine KeepsFloat.trans ?_ (.of_changes (relatch_changes _) (by decide))
  refine KeepsFloat.trans ?_ (.of_changes (State.sweepOfNothing_changes _) (by decide))
  refine KeepsFloat.trans ?_ (.of_changes (State.formExposures_changes _ _) (by decide))
  exact .of_same rfl rfl

theorem State.completeSeal_keepsFloat (s : State) (st : Settings) (x : SealingSet) (no : SlotNo) :
    KeepsFloat s (s.completeSeal st x no) := by
  unfold State.completeSeal
  refine KeepsFloat.trans ?_ (.of_changes (State.askTallies_changes _ _) (by decide))
  refine KeepsFloat.trans ?_ (.of_changes (relatch_changes _) (by decide))
  refine KeepsFloat.trans ?_ (.of_changes (State.retestTallies_changes _ _) (by decide))
  refine KeepsFloat.trans ?_ (.of_changes (State.formExposures_changes _ _) (by decide))
  exact .of_same rfl rfl

theorem State.pendingClose_keepsFloat (s : State) (st : Settings) : KeepsFloat s (s.pendingClose st) := by
  unfold State.pendingClose
  split
  · exact s.closeAt_keepsFloat _ _
  · exact .refl _

theorem State.makeSeal_keepsFloat (s : State) (st : Settings) (forced : Bool) : KeepsFloat s (s.makeSeal st forced) := by
  unfold State.makeSeal
  split; · exact .refl _
  dsimp only
  split
  · refine KeepsFloat.trans ?_ (State.pendingClose_keepsFloat _ _)
    refine KeepsFloat.trans ?_ (State.completeSeal_keepsFloat _ _ _ _)
    exact .of_same rfl rfl
  · exact .of_same rfl rfl

theorem State.completeDeferred_keepsFloat (s : State) (st : Settings) : KeepsFloat s (s.completeDeferred st) := by
  unfold State.completeDeferred
  split
  · exact (s.completeSeal_keepsFloat _ _ _).trans (State.pendingClose_keepsFloat _ _)
  · exact .refl _

theorem State.sweepEnd_keepsFloat (s : State) (st : Settings) : KeepsFloat s (s.sweepEnd st) := by
  unfold State.sweepEnd
  dsimp only
  split
  · exact KeepsFloat.trans (t := s.setCursor none) (.of_same rfl rfl) (State.makeSeal_keepsFloat _ _ _)
  · exact .of_same rfl rfl

theorem State.sweepStep_keepsFloat (s : State) (st : Settings) : KeepsFloat s (s.sweepStep st) := by
  unfold State.sweepStep
  split; · exact .refl _
  split
  · exact s.sweepEnd_keepsFloat st
  · rename_i c _
    have examined : KeepsFloat s ((s.examine st c).setCursor (some c.serial)) :=
      (s.examine_keepsFloat st c).trans (.of_same rfl rfl)
    exact .ite (examined.trans (State.sweepEnd_keepsFloat _ st)) examined

theorem State.windowExpiry_keepsFloat (s : State) (st : Settings) : KeepsFloat s (s.windowExpiry st) := by
  unfold State.windowExpiry
  split; · exact .refl _
  split
  · exact .ite (KeepsFloat.trans (t := { s with cc := { s.cc with sealTimer := none } }) (.of_same rfl rfl)
      (State.makeSeal_keepsFloat _ _ _)) (.of_same rfl rfl)
  · exact .refl _

theorem State.sealDue_keepsFloat (s : State) (st : Settings) : KeepsFloat s (s.sealDue st) := by
  unfold State.sealDue; exact .ite (s.makeSeal_keepsFloat _ _) (.refl _)

theorem State.keepTarget_keepsFloat (s : State) (t : Nat) : KeepsFloat s (s.keepTarget t) := .of_same rfl rfl

theorem State.catchUp_keepsFloat (s : State) (st : Settings) (t : Nat) : KeepsFloat s (s.catchUp st t) := by
  unfold State.catchUp
  split
  · exact s.closeAt_keepsFloat _ _
  · exact s.keepTarget_keepsFloat t
  · exact (s.keepTarget_keepsFloat t).trans (State.makeSeal_keepsFloat _ _ _)
  · exact s.keepTarget_keepsFloat t

theorem State.closeDay_keepsFloat (s : State) (st : Settings) : KeepsFloat s (s.closeDay st).1 := by
  unfold State.closeDay
  dsimp only
  split; · exact .refl _
  split
  · exact s.closeAt_keepsFloat _ _
  · exact s.keepTarget_keepsFloat _
  · split
    · exact (s.keepTarget_keepsFloat _).trans (State.makeSeal_keepsFloat _ _ _)
    · exact s.makeSeal_keepsFloat _ _
  · exact .refl _

theorem State.readStatement_keepsFloat (s : State) (st : Settings) : KeepsFloat s (s.readStatement st).1 := by
  unfold State.readStatement
  split; · exact .refl _
  dsimp only
  split
  · exact .of_same rfl rfl
  · exact KeepsFloat.trans (t := { s with su := s.su.freeOldest }) (.of_same rfl rfl)
      (State.completeDeferred_keepsFloat _ _)

/-! ### Frames heard (Reception.lean) -/

theorem State.onHeader_keepsFloat (s : State) (st : Settings) (h : Header) : KeepsFloat s (s.onHeader st h) := by
  unfold State.onHeader State.catchUpCheck
  refine KeepsFloat.trans (.of_changes (s.hearPeer_changes h) (by decide)) ?_
  refine KeepsFloat.trans ?_ (.of_changes (relatch_changes _) (by decide))
  exact .ite (State.catchUp_keepsFloat _ _ _) (.refl _)

/-- A request is served, then its answer offered to the answer queue. -/
theorem KeepsFloat.answered {s t : State} (h : KeepsFloat s t) (source tag : Nat) (b : Body) :
    KeepsFloat s (t.answerTo source tag b) :=
  h.trans (.of_changes (t.answerTo_changes _ _ _) (by decide))

theorem State.handOver_keepsFloat (s : State) (st : Settings) (h : Header) (b : Body) :
    KeepsFloat s (s.handOver st h b) := by
  unfold State.handOver
  split
  · exact (s.serveAsk_keepsFloat _ _ _ _ _ _ _).answered _ _ _
  · exact (s.serveTake_keepsFloat _ _ _ _ _ _).answered _ _ _
  · exact (s.freeHold_keepsFloat _ _ _ _).answered _ _ _
  · exact (s.serveCredit_keepsFloat _ _ _ _ _ _).answered _ _ _
  · exact .of_changes (s.onTally_changes _ _) (by decide)
  · exact .of_changes (s.onCheck_changes _) (by decide)
  · exact .of_changes (s.onBeacon_changes _) (by decide)
  all_goals exact .of_changes (s.serveAnswer_changes _ _ _) (by decide)

theorem State.readBody_keepsFloat (s : State) (st : Settings) (h : Header) (x : RxBody) :
    KeepsFloat s (s.readBody st h x) := by
  unfold State.readBody
  split
  · exact s.handOver_keepsFloat _ _ _
  · have fault : KeepsFloat s (s.protocolFault h.source) := .of_changes (s.protocolFault_changes _) (by decide)
    exact .ite (fault.answered _ _ _) fault

theorem State.drainTest_keepsFloat (s : State) : KeepsFloat s s.drainTest :=
  .of_changes s.drainTest_changes (by decide)

theorem State.onReadable_keepsFloat (s : State) (st : Settings) (h : Header) (x : RxBody) :
    KeepsFloat s (s.onReadable st h x) := by
  unfold State.onReadable
  split
  · exact .of_changes s.clashFound_changes (by decide)
  · refine KeepsFloat.trans (s.onHeader_keepsFloat st h) ?_
    exact .ite ((State.readBody_keepsFloat _ _ _ _).trans (State.drainTest_keepsFloat _)) (State.drainTest_keepsFloat _)

theorem State.hearGood_keepsFloat (s : State) (h : RxHeader) (x : RxBody) : KeepsFloat s (s.hearGood h x) := by
  unfold State.hearGood whenEnrolled
  split
  · split
    · split
      · exact s.onReadable_keepsFloat _ _ _
      · exact .refl _
    · exact .refl _
  · exact .refl _

theorem State.hearBits_keepsFloat (s : State) (bs : List Bool) : KeepsFloat s (s.hearBits bs) := by
  have counted : KeepsFloat s (if s.lc.receives then s.countBad else s) :=
    .ite (.of_changes s.countBad_changes (by decide)) (.refl _)
  unfold State.hearBits
  split
  · exact s.hearGood_keepsFloat _ _
  · exact .refl _
  · exact counted
  · exact counted

/-! ### Till commands (Commands.lean) -/

/-- What the enrolment test lets through, and what it refuses, holds of the state after it. -/
theorem enrolled_ind {P : State → Prop} {f : Settings → Effect} {s : State} (refused : P s)
    (taken : ∀ st, P (f st s).1) : P (enrolled f s).1 := by
  unfold enrolled
  split
  · exact refused
  · exact taken _

theorem withRef_ind {P : State → Prop} {ref : RefField} {f : CardRef → Effect} {s : State} (refused : P s)
    (taken : ∀ c, P (f c s).1) : P (withRef ref f s).1 := by
  unfold withRef
  split
  · exact refused
  · exact taken _

theorem withAmount_ind {P : State → Prop} {a : AmountField} {f : Nat → Effect} {s : State} (refused : P s)
    (taken : ∀ n, P (f n s).1) : P (withAmount a f s).1 := by
  unfold withAmount
  split
  · exact refused
  · exact taken _

theorem withCycle_ind {P : State → Prop} {c : CycleField} {f : Nat → Effect} {s : State} (refused : P s)
    (taken : ∀ n, P (f n s).1) : P (withCycle c f s).1 := by
  unfold withCycle
  split
  · exact refused
  · exact taken _

theorem withTrail_ind {P : State → Prop} {n : Digits8Field} {f : Nat → Effect} {s : State} (refused : P s)
    (taken : ∀ n, P (f n s).1) : P (withTrail n f s).1 := by
  unfold withTrail
  split
  · exact refused
  · exact taken _

theorem ownCard_ind {P : State → Prop} {ref : RefField} {f : Settings → Nat → Effect} {s : State} (refused : P s)
    (taken : ∀ st n, P (f st n s).1) : P (ownCard ref f s).1 := by
  refine enrolled_ind refused fun st => withRef_ind refused fun c => ?_
  split
  · exact taken st c.serial
  · exact refused

theorem State.openExchange_keepsFloat (s : State) (p : ExParams) (home serial : Nat) (token : Token) :
    KeepsFloat s (s.openExchange p home serial token).1 :=
  .of_changes (s.openExchange_changes p home serial token) (by decide)

theorem runCommand_keepsFloat (token : Token) (c : Command) (s : State) : KeepsFloat s (runCommand token c s).1 := by
  have stay := KeepsFloat.refl s
  cases c with
  | enrol f => exact .of_changes (cmdEnrol_changes f s) (by decide)
  | join => exact .of_changes (cmdJoin_changes s) (by decide)
  | drain => exact .of_changes (cmdDrain_changes s) (by decide)
  | leave => exact .of_changes (cmdLeave_changes s) (by decide)
  | issue a v =>
    exact withCycle_ind stay fun v => enrolled_ind stay fun st => withAmount_ind stay fun a => s.issue_keepsFloat st a v
  | load r a =>
    refine enrolled_ind stay fun st => withRef_ind stay fun c => withAmount_ind stay fun a => ?_
    split
    · exact s.load_keepsFloat _ _ _
    · exact stay
  | cashout r => exact ownCard_ind stay fun _ n => s.cashout_keepsFloat n
  | freeze r => exact ownCard_ind stay fun _ n => s.setFrozen_keepsFloat n _
  | thaw r => exact ownCard_ind stay fun _ n => s.setFrozen_keepsFloat n _
  | enquire r =>
    refine enrolled_ind stay fun st => withRef_ind stay fun c => ?_
    split
    · exact s.enquireOwn_keepsFloat _
    · exact s.openExchange_keepsFloat _ _ _ _
  | authorize r a l =>
    refine enrolled_ind stay fun st => withRef_ind stay fun c => withAmount_ind stay fun a => withAmount_ind stay fun l => ?_
    split; · exact stay
    split
    · exact s.authorizeOwn_keepsFloat _ _ _ _
    · exact s.openExchange_keepsFloat _ _ _ _
  | capture r i a =>
    refine enrolled_ind stay fun st => withRef_ind stay fun c => withAmount_ind stay fun a => ?_
    split
    · exact s.captureOwn_keepsFloat _ _ _ _
    · exact s.openExchange_keepsFloat _ _ _ _
  | void r i =>
    refine enrolled_ind stay fun st => withRef_ind stay fun c => ?_
    split
    · exact s.freeHold_keepsFloat _ _ _ _
    · exact s.openExchange_keepsFloat _ _ _ _
  | refund r n a =>
    refine withTrail_ind stay fun n => enrolled_ind stay fun st => withRef_ind stay fun c => withAmount_ind stay fun a => ?_
    split
    · exact s.refundOwn_keepsFloat _ _ _ _
    · exact s.openExchange_keepsFloat _ _ _ _
  | closeDay => exact enrolled_ind stay fun st => s.closeDay_keepsFloat st
  | report => exact .of_changes (cmdReport_changes s) (by decide)
  | setRate r f e => exact .of_changes (cmdSetRate_changes r f e s) (by decide)
  | readStatement => exact enrolled_ind stay fun st => s.readStatement_keepsFloat st
  | readResult => exact .of_changes (cmdReadResult_changes s) (by decide)
  | peerStatus p => exact .of_changes (cmdPeerStatus_changes p s) (by decide)
  | clearPeer p => exact .of_changes (cmdClearPeer_changes p s) (by decide)
  | adjust p r l => exact .of_changes (cmdAdjust_changes p r l s) (by decide)
  | status => exact stay
  | clearMonitor x => exact .of_changes (cmdClearMonitor_changes x s) (by decide)
  | restart => exact .of_changes (cmdRestart_changes s) (by decide)
  | wipe =>
    change KeepsFloat s s.wipe.1
    unfold State.wipe
    split
    · exact stay
    · exact s.coldStart_keepsFloat

/-- A write transfer: the command runs in IDLE alone, and the response or the busy count is the port's (R179). -/
theorem State.write_keepsFloat {run : Effect} (h : ∀ s, KeepsFloat s (run s).1) (token : Token) (s : State) :
    KeepsFloat s (State.write token run s) := by
  refine KeepsFloat.trans (.of_changes (s.shiftOut_changes [s.stateByte]) (by decide)) ?_
  exact .ite ((h _).trans (.of_changes (State.respond_changes _ _ _) (by decide)))
    (.of_changes (State.countBusy_changes _) (by decide))

theorem write_command_keepsFloat (token : Token) (c : Command) (s : State) :
    KeepsFloat s (State.write token (runCommand token c) s) := State.write_keepsFloat (runCommand_keepsFloat token c) token s

theorem runBlock_keepsFloat (block : List Byte) (s : State) : KeepsFloat s (runBlock block s).1 := by
  unfold runBlock
  cases parseBlock block with
  | some c => exact runCommand_keepsFloat _ c s
  | none => exact .refl s

theorem State.transfer_keepsFloat (s : State) (mosi : List Byte) : KeepsFloat s (s.transfer mosi) := by
  unfold State.transfer
  split
  · exact .of_changes (s.shiftOut_changes _) (by decide)
  · split; · exact State.write_keepsFloat (runBlock_keepsFloat _) _ s
    split
    · exact .of_changes (s.read_changes _) (by decide)
    · exact .of_changes (s.shiftOut_changes _) (by decide)

/-! ### Every command -/

theorem whenEnrolled_keepsFloat (s : State) (f : Settings → State) (h : ∀ st, KeepsFloat s (f st)) :
    KeepsFloat s (whenEnrolled s f) := by
  unfold whenEnrolled
  split
  · exact h _
  · exact .refl s

theorem work_keepsFloat (i : Instr) (s : State) : KeepsFloat s (work i s) := by
  cases i with
  | enrol _ token f => exact write_command_keepsFloat token (.enrol f) s
  | join _ token => exact write_command_keepsFloat token .join s
  | drain _ token => exact write_command_keepsFloat token .drain s
  | leave _ token => exact write_command_keepsFloat token .leave s
  | issue _ token a v => exact write_command_keepsFloat token (.issue a v) s
  | load _ token r a => exact write_command_keepsFloat token (.load r a) s
  | cashout _ token r => exact write_command_keepsFloat token (.cashout r) s
  | freeze _ token r => exact write_command_keepsFloat token (.freeze r) s
  | thaw _ token r => exact write_command_keepsFloat token (.thaw r) s
  | enquire _ token r => exact write_command_keepsFloat token (.enquire r) s
  | authorize _ token r a l => exact write_command_keepsFloat token (.authorize r a l) s
  | capture _ token r i a => exact write_command_keepsFloat token (.capture r i a) s
  | void _ token r i => exact write_command_keepsFloat token (.void r i) s
  | refund _ token r n a => exact write_command_keepsFloat token (.refund r n a) s
  | closeDay _ token => exact write_command_keepsFloat token .closeDay s
  | report _ token => exact write_command_keepsFloat token .report s
  | setRate _ token r f e => exact write_command_keepsFloat token (.setRate r f e) s
  | readStatement _ token => exact write_command_keepsFloat token .readStatement s
  | readResult _ token => exact write_command_keepsFloat token .readResult s
  | peerStatus _ token p => exact write_command_keepsFloat token (.peerStatus p) s
  | clearPeer _ token p => exact write_command_keepsFloat token (.clearPeer p) s
  | adjust _ token p r l => exact write_command_keepsFloat token (.adjust p r l) s
  | status _ token => exact write_command_keepsFloat token .status s
  | clearMonitor _ token x => exact write_command_keepsFloat token (.clearMonitor x) s
  | restart _ token => exact write_command_keepsFloat token .restart s
  | wipe _ token => exact write_command_keepsFloat token .wipe s
  | malformedBlock | writeRefusedBusy | responseRead => exact s.transfer_keepsFloat _
  | askReceived | takeReceived | freeReceived | creditReceived | grantReceived | takenReceived | freedReceived
  | creditedReceived | refuseReceived | tallyReceived | checkReceived | beaconReceived | frameClash | malformedFrame
  | unreadableHeader | headerOnlyFrame => exact s.hearGood_keepsFloat _ _
  | badFrame | fragment => exact s.hearBits_keepsFloat _
  | lineIdle => exact .of_changes s.lineIdle_changes (by decide)
  | lineBusy => exact .of_changes s.lineBusy_changes (by decide)
  | answerStart => exact .of_changes s.startAnswer_changes (by decide)
  | requestStart => exact .of_changes (whenEnrolled_changes s _ s.startRequest_changes) (by decide)
  | spacingExpiry => exact .of_changes (whenEnrolled_changes s _ s.spacingExpiry_changes) (by decide)
  | collision => exact (KeepsFloat.of_changes s.collide_changes (by decide)).trans (State.drainTest_keepsFloat _)
  | frameSent => exact (KeepsFloat.of_changes s.frameSent_changes (by decide)).trans (State.drainTest_keepsFloat _)
  | requestQueueFill => exact .of_changes s.fillRequests_changes (by decide)
  | beaconTime => exact .of_changes s.beaconTime_changes (by decide)
  | listenEnd => exact .of_changes s.listenOver_changes (by decide)
  | sendFailedExpiry => exact .of_changes s.sendFailedExpiry_changes (by decide)
  | answerDroppedExpiry => exact .of_changes s.answerDroppedExpiry_changes (by decide)
  | linkNoiseExpiry => exact .of_changes s.noiseExpiry_changes (by decide)
  | drainComplete => exact s.drainTest_keepsFloat
  | replyTimeout =>
    exact (KeepsFloat.of_changes (s.replyTimeout_changes _) (by decide)).trans (State.drainTest_keepsFloat _)
  | resultQueueFill => exact .of_changes s.fillResults_changes (by decide)
  | pendingClose => exact whenEnrolled_keepsFloat s _ s.pendingClose_keepsFloat
  | sweepStep => exact whenEnrolled_keepsFloat s _ s.sweepStep_keepsFloat
  | sealWindowExpiry => exact whenEnrolled_keepsFloat s _ s.windowExpiry_keepsFloat
  | makeSeal => exact whenEnrolled_keepsFloat s _ s.sealDue_keepsFloat
  | deferredSealCompletion => exact whenEnrolled_keepsFloat s _ s.completeDeferred_keepsFloat
  | holdDeadline =>
    exact (whenEnrolled_keepsFloat s _ fun st => s.holdDeadline_keepsFloat st _).trans (State.drainTest_keepsFloat _)
  | peerAbsentTimeout => exact .of_changes (s.peerAbsent_changes _) (by decide)
  | nrst => exact .of_changes (s.resetPin_changes _) (by decide)
  | powerLoss => exact .of_changes s.powerDown_changes (by decide)
  | coldStart | warmStart | retentionLoss => exact .refl s

theorem State.powerUp_keepsFloat (s : State) : KeepsFloat s s.powerUp := by
  unfold State.powerUp
  refine KeepsFloat.trans (t := { s with power := true }) (.of_same rfl rfl) ?_
  exact .ite (.of_changes (State.warmStart_changes _) (by decide)) (State.coldStart_keepsFloat _)

/-- What every command does, by its kind: an event of a powered part, a rise of main power, or the loss of the retention
mark (R186, R190). -/
theorem exec_cases (i : Instr) (s : State) :
    exec i s = event i.moment (work i) s ∨ exec i s = powerRise i.moment s ∨
      exec i s = .next (finish (s.atMoment i.moment).loseRetention) := by
  cases i with
  | coldStart t => exact .inr (.inl rfl)
  | warmStart t => exact .inr (.inl rfl)
  | retentionLoss t => exact .inr (.inr rfl)
  | _ => exact .inl (exec_event _ s nofun nofun nofun)

theorem exec_keepsFloat (i : Instr) {s t : State} (h : exec i s = .next t) : KeepsFloat s t := by
  have clock : KeepsFloat s (s.atMoment i.moment) := .of_same rfl rfl
  have ended (u : State) : KeepsFloat u (finish u) := .of_changes (finish_changes u) (by decide)
  rcases exec_cases i s with e | e | e <;> obtain rfl := Host.Outcome.next.inj (e.symm.trans h)
  · exact (clock.trans (.ite (work_keepsFloat i _) (.refl _))).trans (ended _)
  · exact KeepsFloat.trans (.ite clock (clock.trans (State.powerUp_keepsFloat _))) (ended _)
  · exact (clock.trans (.of_changes (State.loseRetention_changes _) (by decide))).trans (ended _)

/-- Settles O57: the five bookings move float and lifetime total together, every other operation touches neither. -/
theorem floatStaysBalanced : Obligations.FloatStaysBalanced := by
  intro s s' hs hstep
  unfold step at hstep
  split at hstep
  · obtain rfl := Host.Outcome.next.inj hstep
    exact hs
  · exact exec_keepsFloat _ hstep hs

end Sys2Proof.Machine
end

section
/-! The Decimal Unit (chapter 1): what its operations return. -/

namespace Sys2Proof.Machine

/-! ### Totals (R4, R7) -/

theorem totalMax_eq : totalMax = 999999999999 := rfl

theorem overflows_eq_false_iff (x : Int) :
    overflows x = false ↔ -999999999999 ≤ x ∧ x ≤ 999999999999 := by
  simp only [overflows, Bool.or_eq_false_iff, decide_eq_false_iff_not]
  rw [totalMax_eq]
  omega

theorem overflows_iff (x : Int) : overflows x = true ↔ x < -999999999999 ∨ 999999999999 < x := by
  simp only [overflows, Bool.or_eq_true, decide_eq_true_eq]
  rw [totalMax_eq]
  omega

theorem saturate_eq (x : Int) :
    saturate x = if 999999999999 < x then 999999999999 else if x < -999999999999 then -999999999999 else x := rfl

/-- An exact result that fits is returned as it is (R4). -/
theorem saturate_of_fits {x : Int} (h : overflows x = false) : saturate x = x := by
  obtain ⟨hl, hu⟩ := (overflows_eq_false_iff x).1 h
  rw [saturate_eq, if_neg (by omega), if_neg (by omega)]

theorem saturate_above {x : Int} (h : 999999999999 < x) : saturate x = 999999999999 ∧ overflows x = true :=
  ⟨if_pos h, (overflows_iff x).2 (.inr h)⟩

theorem saturate_below {x : Int} (h : x < -999999999999) : saturate x = -999999999999 ∧ overflows x = true :=
  ⟨by rw [saturate_eq, if_neg (by omega), if_pos h], (overflows_iff x).2 (.inl h)⟩

theorem Total.acc_of_marked {t : Total} (h : t.mark = true) (x : Int) : t.acc x = t := if_pos h

theorem Total.acc_of_unmarked {t : Total} (h : t.mark = false) (x : Int) :
    t.acc x = ⟨saturate (t.val + x), overflows (t.val + x)⟩ := by simp [Total.acc, h]

theorem Total.accSat_iff (t : Total) (x : Int) : t.accSat x = true ↔ t.mark = false ∧ overflows (t.val + x) = true := by
  simp [Total.accSat]

theorem compareAmounts_less (a b : Int) : compareAmounts a b = .less ↔ a < b := by
  unfold compareAmounts; split_ifs <;> simp <;> omega

theorem compareAmounts_equal (a b : Int) : compareAmounts a b = .equal ↔ a = b := by
  unfold compareAmounts; split_ifs <;> simp <;> omega

theorem compareAmounts_greater (a b : Int) : compareAmounts a b = .greater ↔ b < a := by
  unfold compareAmounts; split_ifs <;> simp <;> omega

/-! ### GRANT (R11) -/

theorem grantOf_probe (l v : Nat) : grantOf 0 l v = .probe v := rfl

theorem grantOf_whole {a v : Nat} (l : Nat) (ha : 0 < a) (hv : a ≤ v) : grantOf a l v = .granted a 0 v := by
  rw [grantOf, if_neg (by omega), if_pos hv]

theorem grantOf_part {a l v : Nat} (ha : 0 < a) (hv : v < a) (hl : l ≤ v) : grantOf a l v = .granted v (a - v) v := by
  rw [grantOf, if_neg (by omega), if_neg (by omega), if_pos hl]

theorem grantOf_funds {a l v : Nat} (ha : 0 < a) (hv : v < a) (hl : v < l) : grantOf a l v = .funds a v := by
  rw [grantOf, if_neg (by omega), if_neg (by omega), if_neg (by omega)]

/-- Settles O9, from the cases of saturation, of the order and of the grant. -/
theorem totalsAndGrants : Obligations.TotalsAndGrants := by
  refine ⟨⟨fun x hl hu => ?_, fun x h => saturate_above h, fun x h => saturate_below h,
    fun t x h => t.acc_of_marked h x, fun t x h => t.acc_of_unmarked h x, Total.accSat_iff, fun _ _ => rfl,
    fun a b => ⟨compareAmounts_less a b, compareAmounts_equal a b, compareAmounts_greater a b⟩⟩, fun a least v => ?_⟩
  · have fits := (overflows_eq_false_iff x).2 ⟨hl, hu⟩
    exact ⟨saturate_of_fits fits, fits⟩
  · refine ⟨rfl, by simp [formsRequest], fun ha => ?_, fun ha => grantOf_whole _ ha, fun ha => grantOf_part ha,
      fun ha => grantOf_funds ha⟩
    subst ha
    exact grantOf_probe _ v

/-! ### Counts (R5) -/

theorem countMax_eq : Config.countMax = 999999 := rfl

theorem Count.inc_of_below {c : Count} (hm : c.mark = false) (h : c.n < 999999) : c.inc = ⟨c.n + 1, false⟩ := by
  rw [Count.inc, if_neg (by simp [hm]), countMax_eq, if_pos h]

theorem Count.inc_at_limit {c : Count} (hm : c.mark = false) (h : 999999 ≤ c.n) : c.inc = ⟨999999, true⟩ := by
  rw [Count.inc, if_neg (by simp [hm]), countMax_eq, if_neg (Nat.not_lt.2 h)]

theorem Count.inc_of_marked {c : Count} (hm : c.mark = true) : c.inc = c := if_pos hm

theorem Count.incSat_iff (c : Count) : c.incSat = true ↔ c.mark = false ∧ 999999 ≤ c.n := by
  rw [Count.incSat, countMax_eq, Bool.and_eq_true, decide_eq_true_eq, Bool.not_eq_true']

/-- A booking that counts no capture leaves the counts of captures, of either set, as they are (R123). -/
theorem PeerEntry.bookAsking_keeps_counts (e : PeerEntry) (toSealing late : Bool) (amount : Nat) (x : Int) :
    (e.bookAsking toSealing late false amount x).openF.k = e.openF.k ∧
      (e.bookAsking toSealing late false amount x).sealF.map Figures.k = e.sealF.map Figures.k := by
  have booked (f : Figures) : (f.bookR x false).k = f.k := rfl
  have lately (f : Figures) : (f.bookLate amount).k = f.k := rfl
  cases toSealing <;> cases late <;>
    simp [PeerEntry.bookAsking, Option.map_map, Function.comp_def, booked, lately]

/-- Settles O7, by the three cases of COUNT. -/
theorem countsStopAtTheirLimit : Obligations.CountsStopAtTheirLimit := by
  refine ⟨fun c hm h => ⟨Count.inc_of_below hm h, ?_⟩, fun c hm h => ⟨Count.inc_at_limit hm h.ge, ?_⟩,
    fun c hm => Count.inc_of_marked hm, fun s => ?_, fun s p amount b orphan h => ?_,
    PeerEntry.bookAsking_keeps_counts, fun e dR dL => ⟨rfl, rfl⟩⟩
  · rw [← Bool.not_eq_true, Count.incSat_iff]
    omega
  · exact (Count.incSat_iff c).2 ⟨hm, h.ge⟩
  · simp
  · unfold State.bookAnswer
    simp [h]

/-! ### RATE and FEE (R9, R10) -/

theorem rateOf_eq (base bp : Nat) :
    rateOf base bp = base * bp / 10000 + (if 5000 ≤ base * bp % 10000 then 1 else 0) := by
  unfold rateOf
  split <;> rfl

/-- RATE is monotone in the product it divides. -/
theorem rateOf_le {base bp n : Nat} (h : base * bp ≤ 10000 * n) : rateOf base bp ≤ n := by
  rw [rateOf_eq]
  split <;> omega

theorem baseOf_eq (g : Total) : (baseOf g : Int) = max g.val 0 := Int.toNat_eq_max g.val

/-- A test of a setting has been passed when the reading answers settings (R185). -/
theorem settings_of_ite {c : Prop} [Decidable c] {i : Nat} {x : Except Nat Settings} {st : Settings}
    (h : (if c then .error i else x) = .ok st) : ¬c ∧ x = .ok st := by
  split at h
  · cases h
  · exact ⟨‹_›, h⟩

/-- An amount of a setting has been read when the reading answers settings (R185). -/
theorem settings_of_amount {o : Option Nat} {i : Nat} {x : Nat → Except Nat Settings} {st : Settings}
    (h : (match o with | none => Except.error i | some n => x n) = .ok st) : ∃ n, x n = .ok st := by
  cases o with
  | none => cases h
  | some n => exact ⟨n, h⟩

/-- Settings that are read lie in the ranges of R185 for the initial rate and fee. -/
theorem readSettings_rate {f : EnrolFields} {st : Settings} (h : readSettings f = .ok st) :
    st.initialRate ≤ 1500 ∧ st.initialFee ≤ 99 := by
  obtain ⟨-, h⟩ := settings_of_ite h
  obtain ⟨-, h⟩ := settings_of_ite h
  obtain ⟨-, h⟩ := settings_of_ite h
  obtain ⟨-, h⟩ := settings_of_ite h
  obtain ⟨ceiling, h⟩ := settings_of_amount h
  obtain ⟨-, h⟩ := settings_of_ite h
  obtain ⟨floatLimit, h⟩ := settings_of_amount h
  obtain ⟨-, h⟩ := settings_of_ite h
  obtain ⟨exposureLimit, h⟩ := settings_of_amount h
  obtain ⟨-, h⟩ := settings_of_ite h
  obtain ⟨band, h⟩ := settings_of_amount h
  obtain ⟨-, h⟩ := settings_of_ite h
  obtain ⟨rate, h⟩ := settings_of_ite h
  obtain ⟨fee, h⟩ := settings_of_ite h
  obtain ⟨-, h⟩ := settings_of_ite h
  obtain rfl := Except.ok.inj h
  exact ⟨Nat.not_lt.1 rate, Nat.not_lt.1 fee⟩

theorem State.setRate_badSetting {s : State} {rate fee effective : Nat} (h : 1500 < rate ∨ 99 < fee ∨ effective = 0) :
    s.setRate rate fee effective = (s, .plain .badSetting) := if_pos h

/-- Settles O5, from the bounds of the product. -/
theorem rateRoundsHalfUpward : Obligations.RateRoundsHalfUpward := by
  refine ⟨fun base bp hb hr => ?_, fun base => ?_, fun bp => ?_, baseOf_eq, fun f st => readSettings_rate,
    fun s rate fee effective h => ?_⟩
  · have product : base * bp ≤ 999999999999 * 1500 := Nat.mul_le_mul hb hr
    exact ⟨by omega, rateOf_eq base bp, rateOf_le (by omega)⟩
  · simp [rateOf_eq]
  · simp [rateOf_eq]
  · by_contra bad
    exact h (congrArg Prod.fst (State.setRate_badSetting (by omega)))

/-- Settles O6: the mark of a count and the number 999,999 come together. -/
theorem feeIsExact : Obligations.FeeIsExact := by
  refine ⟨fun n fee hn hf => ⟨rfl, ?_⟩, fun c hc hm => ?_, fun a b ha hb hm => ?_, fun g lam k r hk => ?_⟩
  · calc feeOf n fee = n * fee := rfl
      _ ≤ 999999 * 99 := Nat.mul_le_mul hn hf
      _ = 98999901 := rfl
  · cases hcm : c.mark
    · rcases Nat.lt_or_ge c.n 999999 with h | h
      · simp [Count.inc_of_below hcm h] at hm
      · rw [Count.inc_at_limit hcm h]
    · rw [Count.inc_of_marked hcm]
      exact hc hcm
  · unfold Count.plus at hm ⊢
    split
    · rfl
    · rename_i within
      rw [if_neg within] at hm
      have below : a.n + b.n ≤ 999999 := Nat.le_of_not_lt within
      rcases Bool.or_eq_true_iff.1 hm with h | h
      · have := ha h; dsimp only; omega
      · have := hb h; dsimp only; omega
  · simp [commission, hk]

/-! ### The settlement operations (R12) -/

theorem commission_val (g lam : Total) (k : Count) (r : Rate) :
    (commission g lam k r).val = min ((rateOf (baseOf g) r.bp + feeOf k.n r.fee : Nat) : Int) (max g.val 0) := by
  rw [← baseOf_eq]
  exact Nat.cast_min ..

theorem commission_mark (g lam : Total) (k : Count) (r : Rate) :
    (commission g lam k r).mark = (g.mark || k.mark || lam.mark) := rfl

/-- The difference of G and C never saturates: C lies between 0 and G, or is 0 (R12). -/
theorem commission_fits {g lam : Total} {k : Count} {r : Rate} (hl : -totalMax ≤ g.val) (hu : g.val ≤ totalMax) :
    overflows (g.val - (commission g lam k r).val) = false := by
  rw [overflows_eq_false_iff, commission_val]
  rw [totalMax_eq] at hl hu
  have : (0 : Int) ≤ ((rateOf (baseOf g) r.bp + feeOf k.n r.fee : Nat) : Int) := Int.natCast_nonneg _
  omega

theorem directionOf_mallPays (n : Total) : directionOf n = .mallPays ↔ 0 ≤ n.val := by
  unfold directionOf
  split <;> simp <;> omega

/-- Settles O8, from the values of RATE and FEE and the range of the commission. -/
theorem settlementOperations : Obligations.SettlementOperations := by
  intro g lam k r base fees c n
  have hbase : base = max g.val 0 := by
    simp only [base, compareAmounts_greater]
    omega
  have hnat : base.toNat = baseOf g := by
    rw [hbase, ← baseOf_eq]
    rfl
  have hfees : fees = ((rateOf (baseOf g) r.bp + feeOf k.n r.fee : Nat) : Int) := by
    simp only [fees, hnat]
    push_cast
    rfl
  have hc : c.val = min fees base := by rw [hfees, hbase]; exact commission_val g lam k r
  have hpos : 0 ≤ fees := hfees ▸ Int.natCast_nonneg _
  refine ⟨?_, rfl, fun hb => by omega, fun hg hk hr hf => ?_, fun hl hu => ?_, directionOf_mallPays n⟩
  · simp only [compareAmounts_greater, hc]
    omega
  · have hb : baseOf g ≤ 999999999999 := by
      have := baseOf_eq g
      rw [totalMax_eq] at hg
      omega
    have rate : rateOf (baseOf g) r.bp ≤ 150000000000 := rateOf_le (by
      have : baseOf g * r.bp ≤ 999999999999 * 1500 := Nat.mul_le_mul hb hr
      omega)
    have fee : feeOf k.n r.fee ≤ 999999 * 99 := Nat.mul_le_mul hk hf
    rw [hfees]
    omega
  · have fits : overflows (g.val - c.val) = false := commission_fits hl hu
    have exact := saturate_of_fits fits
    refine ⟨fits, ?_, ?_⟩
    · simp only [n, netOf, Total.diff, exact]
    · simp only [n, netOf, Total.diff, exact, fits, c, commission_mark, Bool.or_false]
      cases g.mark <;> cases k.mark <;> cases lam.mark <;> rfl

end Sys2Proof.Machine
end

section
/-! The shared operations: what the fillings of the two queues leave of the exchanges, and the frames. -/

namespace Sys2Proof.Machine

/-! ### What filling the request queue leaves of the exchanges (R106) -/

/-- What an exchange keeps when its frame enters the request queue (R106). -/
def Exchange.kept (e : Exchange) :
    Nat × ExParams × Bool × Nat × Nat × Option Token × Option Moment × Option Waiting :=
  (e.tag, e.params, e.internal, e.home, e.serial, e.token, e.replyDeadline, e.result)

theorem Exchange.sent_kept (e : Exchange) : e.sent.kept = e.kept := by
  unfold Exchange.sent
  split <;> rfl

/-- Two exchange tables differ in no more than what sending changes. -/
def ExchangeTable.SentOnly (x y : ExchangeTable) : Prop :=
  (y.ended, y.nextTag) = (x.ended, x.nextTag) ∧ y.exchanges.map Exchange.kept = x.exchanges.map Exchange.kept

theorem ExchangeTable.SentOnly.of_eq {x y : ExchangeTable} (h : y = x) : x.SentOnly y := h ▸ ⟨rfl, rfl⟩

theorem ExchangeTable.SentOnly.trans {x y z : ExchangeTable} (h : x.SentOnly y) (g : y.SentOnly z) : x.SentOnly z :=
  ⟨g.1.trans h.1, g.2.trans h.2⟩

theorem State.modExchange_sentOnly (s : State) (tag : Nat) : s.xt.SentOnly (s.modExchange tag Exchange.sent).xt := by
  refine ⟨rfl, ?_⟩
  rw [State.modExchange_xt, List.map_map]
  refine List.map_congr_left fun e _ => ?_
  simp only [Function.comp_apply]
  split
  · exact e.sent_kept
  · rfl

theorem State.setRequestQ_xt (s : State) (q : List QFrame) : (s.setRequestQ q).xt = s.xt :=
  s.setRequestQ_changes q .exchanges (by decide)

theorem State.fillOne_sentOnly {s t : State} (h : s.fillOne = some t) : s.xt.SentOnly t.xt := by
  unfold State.fillOne at h
  split at h
  · cases h
  · split at h
    · obtain rfl := Option.some.inj h
      exact .of_eq (State.placeBeacon_changes _ .exchanges (by decide))
    · split at h
      · split at h <;> (obtain rfl := Option.some.inj h; exact .of_eq (State.setRequestQ_xt _ _))
      · split at h
        · obtain rfl := Option.some.inj h
          exact (s.modExchange_sentOnly _).trans (.of_eq (State.setRequestQ_xt _ _))
        · cases h

theorem State.fillTimes_sentOnly (n : Nat) : ∀ s : State, s.xt.SentOnly (State.fillTimes n s).xt := by
  induction n with
  | zero => exact fun s => .of_eq rfl
  | succ n ih =>
    intro s
    unfold State.fillTimes
    split
    · rename_i t h
      exact (State.fillOne_sentOnly h).trans (ih t)
    · exact .of_eq rfl

theorem State.fillRequests_sentOnly (s : State) : s.xt.SentOnly s.fillRequests.xt := State.fillTimes_sentOnly _ s

/-! ### What filling the result queue leaves of the Exchange Table (R117, R182) -/

theorem State.fillResult_keeps_ended {s t : State} (h : s.fillResult = some t) :
    (t.xt.ended, t.xt.nextTag) = (s.xt.ended, s.xt.nextTag) := by
  unfold State.fillResult at h
  split at h
  · cases h
  · split at h
    · cases h
    · obtain rfl := Option.some.inj h; rfl
    · split at h
      · obtain rfl := Option.some.inj h; rfl
      · cases h
    · split at h
      · obtain rfl := Option.some.inj h
        split <;> rfl
      · cases h

theorem State.fillResultTimes_keeps_ended (n : Nat) :
    ∀ s : State, ((State.fillResultTimes n s).xt.ended, (State.fillResultTimes n s).xt.nextTag) =
      (s.xt.ended, s.xt.nextTag) := by
  induction n with
  | zero => exact fun s => rfl
  | succ n ih =>
    intro s
    unfold State.fillResultTimes
    split
    · rename_i t h
      exact (ih t).trans (State.fillResult_keeps_ended h)
    · rfl

theorem State.fillResults_keeps_ended (s : State) :
    (s.fillResults.xt.ended, s.fillResults.xt.nextTag) = (s.xt.ended, s.xt.nextTag) :=
  State.fillResultTimes_keeps_ended _ s

/-! ### Look-ups and lists -/

theorem keepLast_append {α : Type} {k : Nat} (old : List α) {new : List α} (h : new.length = k) :
    keepLast k (old ++ new) = new := by simp [keepLast, h]

theorem State.peer_of_find {s : State} {n : Nat} {e : PeerEntry} (h : (s.pt.find? fun x => x.peer == n) = some e) :
    s.peer n = e := by rw [State.peer, h]

theorem State.heldSum_of_find {s : State} {n : Nat} {x : HeldSum}
    (h : (s.ht.peerHeld.find? fun y => y.peer == n) = some x) : s.heldSum n = x.sum := by rw [State.heldSum, h]

theorem State.wantedMarks_of_find {s : State} {n : Nat} {m : WantedMarks}
    (h : (s.lc.wanted.find? fun x => x.peer == n) = some m) : s.wantedMarks n = m := by rw [State.wantedMarks, h]

/-- A lapse is booked into Q alone (R31). -/
theorem State.lapseIfDue_keeps_own (s : State) (n : Nat) :
    ((s.lapseIfDue n).ct.openOwn.s, (s.lapseIfDue n).ct.openOwn.u, (s.lapseIfDue n).ct.openOwn.x) =
      (s.ct.openOwn.s, s.ct.openOwn.u, s.ct.openOwn.x) := by
  unfold State.lapseIfDue
  split
  · split
    · unfold State.lapseCard
      dsimp only [State.raiseSat_ct, State.modCard_ct_openOwn]
      split <;> rfl
    · rfl
  · rfl

/-- Settles O55: each operation's frame lemma, the look-ups, and what the two fillings leave of the Exchange Table. -/
theorem sharedOperationsFrames : Obligations.SharedOperationsFrames := by
  refine ⟨fun l => ⟨keepLast_eq_self, fun old new h hn => h ▸ keepLast_append old hn⟩, fun s => ?_⟩
  refine ⟨fun n => ⟨⟨rfl, rfl, rfl, rfl⟩, fun _ => State.peer_of_find, fun _ => State.heldSum_of_find,
    fun _ => State.wantedMarks_of_find, fun _ => rfl, fun _ => rfl, fun _ => rfl⟩, fun _ => rfl, fun _ => rfl, ?_⟩
  have hfill := s.fillRequests_sentOnly
  exact ⟨finish_changes s, ⟨s.fillRequests_changes, hfill.1, hfill.2⟩,
    ⟨s.fillResults_changes, s.fillResults_keeps_ended⟩, s.offerAnswer_changes, s.linkResult_changes,
    fun p => ⟨s.askOwed_changes p, s.wantResends_changes p, s.protocolFault_changes p⟩, s.askOwedAll_changes,
    s.reportDiscard_changes, s.hearPeer_changes, s.catchUp_changes,
    fun n => ⟨s.lapseIfDue_changes n, s.lapseIfDue_keeps_own n⟩, s.bookLiability_changes, s.setAside_changes,
    s.endByAnswer_changes, s.orphanGrant_changes,
    fun st forced => ⟨s.makeSeal_changes st forced, s.completeDeferred_changes st, s.sweepEnd_changes st⟩,
    s.drainTest_changes⟩

end Sys2Proof.Machine
end

section
/-! Exposure (R125, R126): the sum of its parts, whose saturation is reported, and its comparator. -/

namespace Sys2Proof.Machine

/-- A chain of ADD whose exact value is `x` and in which a figure is marked when `m` says so: it stops at the limit
value once `x` has passed it (R4, note 3). -/
def Chain.at (x : Int) (m : Bool) : Chain := ⟨saturate x, m || overflows x, overflows x⟩

/-- A chain of values that are zero or positive stays past the limit value once it has passed it. -/
theorem Chain.at_add {x : Int} {m : Bool} {t : Total} (hx : 0 ≤ x) (ht : 0 ≤ t.val) :
    (Chain.at x m).add t = Chain.at (x + t.val) (m || t.mark) := by
  cases h : overflows x
  · have fits := saturate_of_fits h
    simp only [Chain.add, Chain.at, h, fits, Bool.or_false, Bool.false_eq_true, if_false]
  · have past : 999999999999 < x := by
      rcases (overflows_iff x).1 h with h | h <;> omega
    obtain ⟨hs, ho⟩ := saturate_above (x := x + t.val) (by omega)
    obtain ⟨hs', -⟩ := saturate_above past
    simp [Chain.add, Chain.at, h, hs, ho, hs']

/-- The sum of the parts of an exposure, as an exact number (R125). -/
def exposureSum (e : PeerEntry) (held : Nat) : Int :=
  max e.openF.l.val 0 + (match e.sealF with | some f => max f.l.val 0 | none => 0) + (held : Int)

/-- A part of an exposure carries a mark (R125). -/
def exposureMark (e : PeerEntry) : Bool := e.openF.l.mark || (match e.sealF with | some f => f.l.mark | none => false)

theorem exposureChain_eq (e : PeerEntry) (held : Nat) :
    exposureChain e held = Chain.at (exposureSum e held) (exposureMark e) := by
  unfold exposureChain exposureSum exposureMark chainSum
  have start : (⟨0, false, false⟩ : Chain) = Chain.at 0 false := rfl
  have hopen : 0 ≤ (exposurePart e.openF.l).val := Int.le_max_right ..
  have hheld : 0 ≤ (⟨held, false⟩ : Total).val := Int.natCast_nonneg held
  rw [List.foldl_cons, List.foldl_cons, List.foldl_cons, List.foldl_nil, start, Chain.at_add (le_refl _) hopen]
  cases e.sealF with
  | none =>
    have hzero : 0 ≤ Total.zero.val := le_refl _
    rw [Chain.at_add (by omega) hzero, Chain.at_add (by omega) hheld]
    simp [exposurePart, Total.zero]
  | some f =>
    have hseal : 0 ≤ (exposurePart f.l).val := Int.le_max_right ..
    rw [Chain.at_add (by omega) hseal, Chain.at_add (by omega) hheld]
    simp [exposurePart]

theorem exposureChain_stuck (e : PeerEntry) (held : Nat) :
    (exposureChain e held).stuck = overflows (exposureSum e held) := by rw [exposureChain_eq]; rfl

theorem PeerEntry.withExposure_exposure (e : PeerEntry) (st : Settings) (held : Nat) :
    (e.withExposure st held).exposure =
      ⟨saturate (exposureSum e held), exposureMark e || overflows (exposureSum e held)⟩ := by
  unfold PeerEntry.withExposure
  rw [exposureChain_eq]
  rfl

theorem PeerEntry.withExposure_tripped (e : PeerEntry) (st : Settings) (held : Nat) :
    (e.withExposure st held).tripped = comparatorAfter st e.tripped (e.withExposure st held).exposure.val := rfl

/-- The comparator that has not tripped trips at the limit (R126). -/
theorem comparatorAfter_untripped (st : Settings) (x : Int) :
    comparatorAfter st false x = true ↔ (st.exposureLimit : Int) ≤ x := by
  simp [comparatorAfter, compareAmounts_less]

/-- The comparator that has tripped releases below the limit, the band under it (R126). -/
theorem comparatorAfter_tripped (st : Settings) (x : Int) :
    comparatorAfter st true x = false ↔
      x ≤ (st.exposureLimit : Int) - st.exposureBand ∧ x < st.exposureLimit := by
  simp [comparatorAfter, compareAmounts_less, compareAmounts_greater]

theorem State.formExposure_mu (s : State) (st : Settings) (p : Nat) :
    (s.formExposure st p).mu =
      { s.mu with saturation := s.mu.saturation || overflows (exposureSum (s.peer p) (s.heldSum p)) } := by
  rw [← exposureChain_stuck]
  rfl

theorem State.formExposures_pt (s : State) (st : Settings) :
    (s.formExposures st).pt = s.pt.map fun e => e.withExposure st (s.heldSum e.peer) := rfl

theorem State.formExposures_mu (s : State) (st : Settings) :
    (s.formExposures st).mu =
      { s.mu with
        saturation := s.mu.saturation || s.pt.any fun e => overflows (exposureSum e (s.heldSum e.peer)) } := by
  simp only [← exposureChain_stuck]
  rfl

/-- Forming every exposure reports saturation when a sum does not fit (R6, R125). -/
theorem State.formExposures_saturation (s : State) (st : Settings) :
    (s.formExposures st).mu.saturation = true ↔
      s.mu.saturation = true ∨ ∃ e ∈ s.pt, overflows (exposureSum e (s.heldSum e.peer)) = true := by
  rw [State.formExposures_mu]
  simp

/-- Settles O34, from the exact sum that the chain of exposures follows. -/
theorem exposureAndComparator : Obligations.ExposureAndComparator := by
  refine ⟨fun _ _ _ _ => rfl, fun s st p => ⟨rfl, s.formExposure_changes st p⟩, fun e st held => ?_⟩
  intro sealL sum e'
  have hsum : sum = exposureSum e held := by
    simp only [sum, sealL, exposureSum]
    cases e.sealF <;> rfl
  have hmark : (e.openF.l.mark || sealL.mark) = exposureMark e := by
    simp only [sealL, exposureMark]
    cases e.sealF <;> rfl
  refine ⟨fun s p hp hh => ?_, fun _ _ _ => ?_, rfl, fun ht => ?_, fun ht => ?_⟩
  · rw [State.formExposure_mu, hp, hh, hsum]
  · rw [hmark, hsum]
    exact e.withExposure_exposure st held
  · simp only [e', PeerEntry.withExposure_tripped, ht]
    exact comparatorAfter_untripped st _
  · simp only [e', PeerEntry.withExposure_tripped, ht]
    exact comparatorAfter_tripped st _

end Sys2Proof.Machine
end

section
/-! The Monitor Unit (chapter 10): what is live and shown, what a command does to the latched flags, and the pins. -/

namespace Sys2Proof.Machine

/-! ### Live conditions, shown states and flags (R171, R172, R174) -/

/-- The thirteen sources in their order (R171). -/
def Source.inOrder : List Source :=
  [.clash, .saturated, .linkNoise, .sendFailed, .answerDropped, .trailFull, .holdTableFull, .cycleBehind, .reportLost,
   .peerAbsent, .peerWatch, .peerExposure, .peerBarred]

theorem liveBits_getLsbD (s : State) (k : Nat) :
    (liveBits s).getLsbD k = (Source.inOrder.map (live s)).getD k false := by
  rw [liveBits, BitVec.getLsbD_ofBoolListLE]
  rfl

/-- Bit k of the live conditions is the live condition of the source at place k. -/
theorem liveBits_source {s : State} {k : Nat} {x : Source} (h : Source.inOrder[k]? = some x) :
    (liveBits s).getLsbD k = true ↔ live s x = true := by
  rw [liveBits_getLsbD, List.getD_eq_getElem?_getD, List.getElem?_map, h]
  rfl

theorem Cycles.isCurrent_iff (cc : Cycles) (c : Nat) :
    cc.isCurrent c = true ↔ c = cc.openCycle ∨ ∃ x, cc.sealing = some x ∧ c = x.cycle := by
  unfold Cycles.isCurrent
  cases cc.sealing <;> simp

theorem trailFullLive_iff (s : State) :
    trailFullLive s = true ↔ ∃ st e rest, s.tp.settings = some st ∧ s.tr.entries = e :: rest ∧
      s.tr.entries.length = st.trailArea ∧ s.cc.isCurrent e.booking = true := by
  unfold trailFullLive
  cases hs : s.tp.settings with
  | none => simp
  | some st =>
    cases he : s.tr.entries with
    | nil => simp
    | cons e rest => simp

theorem holdTableFullLive_iff (s : State) :
    holdTableFullLive s = true ↔ ∃ st, s.tp.settings = some st ∧ s.ht.openCount = st.holdArea := by
  unfold holdTableFullLive
  cases s.tp.settings <;> simp

theorem shownBits_getLsbD (s : State) (k : Nat) : (shownBits s).getLsbD k = true ↔ s.mu.detect.getLsbD k = true ∧
    ((s.mu.latch.getLsbD k = true ∧ s.mu.latched.getLsbD k = true) ∨
      (s.mu.latch.getLsbD k = false ∧ (liveBits s).getLsbD k = true)) := by
  have inRange : s.mu.detect.getLsbD k = true → k < 13 := BitVec.lt_of_getLsbD
  simp only [shownBits, BitVec.getLsbD_and, BitVec.getLsbD_or, BitVec.getLsbD_not, Bool.and_eq_true, Bool.or_eq_true,
    Bool.not_eq_true', decide_eq_true_eq]
  tauto

/-- A word is not zero when one of its bits is set. -/
theorem ne_zero_iff_getLsbD (x : BitVec 13) : (x != 0) = true ↔ ∃ k, k < 13 ∧ x.getLsbD k = true := by
  rw [bne_iff_ne, ne_eq, BitVec.eq_of_getLsbD_eq_iff]
  simp

theorem errorMask_getLsbD : ∀ k < 13, (errorMask.getLsbD k = true ↔ k = 0 ∨ k = 1 ∨ k = 12) := by decide

theorem errorFlag_iff (s : State) : errorFlag s = true ↔
    (shownBits s).getLsbD 0 = true ∨ (shownBits s).getLsbD 1 = true ∨ (shownBits s).getLsbD 12 = true := by
  simp only [errorFlag, ne_zero_iff_getLsbD, BitVec.getLsbD_and, Bool.and_eq_true]
  constructor
  · rintro ⟨k, hk, hs, he⟩
    rcases (errorMask_getLsbD k hk).1 he with rfl | rfl | rfl
    · exact .inl hs
    · exact .inr (.inl hs)
    · exact .inr (.inr hs)
  · rintro (h | h | h)
    · exact ⟨0, by decide, h, by decide⟩
    · exact ⟨1, by decide, h, by decide⟩
    · exact ⟨12, by decide, h, by decide⟩

theorem warningFlag_iff (s : State) :
    warningFlag s = true ↔ ∃ k, 2 ≤ k ∧ k < 12 ∧ (shownBits s).getLsbD k = true := by
  simp only [warningFlag, ne_zero_iff_getLsbD, BitVec.getLsbD_and, BitVec.getLsbD_not, Bool.and_eq_true,
    Bool.not_eq_true', decide_eq_true_eq]
  constructor
  · rintro ⟨k, hk, hs, -, he⟩
    have noError := mt (errorMask_getLsbD k hk).2 (by simp [he])
    exact ⟨k, by omega, by omega, hs⟩
  · rintro ⟨k, h2, h12, hs⟩
    have noError := mt (errorMask_getLsbD k (by omega)).1 (by omega)
    exact ⟨k, by omega, hs, by omega, by simpa using noError⟩

/-! ### What a command does to the latched flags (R172, R173, R177) -/

/-- Both enables of source k are on. -/
def enabledAt (s : State) (k : Nat) : Prop := s.mu.detect.getLsbD k = true ∧ s.mu.latch.getLsbD k = true

/-- A flag set in `t` was set in `s`, or both enables of its source are on in `t`; `within` permits new flags, `clears`
permits flags to go. -/
def LatchStep (within clears : Bool) (s t : State) : Prop :=
  (∀ k, t.mu.latched.getLsbD k = true → s.mu.latched.getLsbD k = true ∨ enabledAt t k) ∧
    (within = false → ∀ k, t.mu.latched.getLsbD k = true → s.mu.latched.getLsbD k = true) ∧
    (clears = false → ∀ k, s.mu.latched.getLsbD k = true → t.mu.latched.getLsbD k = true)

theorem LatchStep.of_eq {within clears : Bool} {s t : State} (h : t.mu.latched = s.mu.latched) :
    LatchStep within clears s t := by
  unfold LatchStep
  rw [h]
  exact ⟨fun _ => .inl, fun _ _ => id, fun _ _ => id⟩

theorem LatchStep.of_changes {within clears : Bool} {ps : List Part} {s t : State} (h : ChangesOnly ps s t)
    (hl : .latched ∉ ps) : LatchStep within clears s t := .of_eq (h .latched hl)

theorem LatchStep.of_grow {clears : Bool} {s t : State} (h : LatchesGrow s t) : LatchStep true clears s t := by
  obtain ⟨hd, hl, hk⟩ := h
  refine ⟨fun k x => ?_, nofun, fun _ k => (hk k).1⟩
  rw [enabledAt, hd, hl]
  exact (hk k).2 x

theorem LatchStep.of_fade {within : Bool} {s t : State}
    (h : ∀ k, t.mu.latched.getLsbD k = true → s.mu.latched.getLsbD k = true) : LatchStep within true s t :=
  ⟨fun k x => .inl (h k x), fun _ => h, nofun⟩

/-- What is permitted less is permitted more. -/
theorem LatchStep.weaken {within clears : Bool} {s t : State} (h : LatchStep within clears s t) :
    LatchStep true true s t := ⟨h.1, nofun, nofun⟩

theorem LatchStep.ite {within clears : Bool} {s t u : State} {c : Prop} [Decidable c] (h : LatchStep within clears s t)
    (g : LatchStep within clears s u) : LatchStep within clears s (if c then t else u) := by
  split
  · exact h
  · exact g

/-- A step between two operations that touch neither latches nor enables. -/
theorem LatchStep.between {within clears : Bool} {ps qs : List Part} {s s' t t' : State} (pre : ChangesOnly ps s s')
    (h : LatchStep within clears s' t') (post : ChangesOnly qs t' t) (hp : .latched ∉ ps) (hq : .latched ∉ qs)
    (he : .enables ∉ qs) : LatchStep within clears s t := by
  have p : s'.mu.latched = s.mu.latched := pre .latched hp
  have q : t.mu.latched = t'.mu.latched := post .latched hq
  have e : (t.mu.detect, t.mu.latch, t.mu.stopOnError) = (t'.mu.detect, t'.mu.latch, t'.mu.stopOnError) :=
    post .enables he
  rw [Prod.mk.injEq, Prod.mk.injEq] at e
  obtain ⟨hd, hl, -⟩ := e
  unfold LatchStep enabledAt at h ⊢
  rw [q, hd, hl, ← p]
  exact h

/-- A warm start keeps the latches of the peer group alone (R177). -/
theorem State.warmStart_latched (s : State) : s.warmStart.mu.latched = s.mu.latched &&& peerGroupMask := by
  unfold State.warmStart
  dsimp only
  split
  · rfl
  · refine Eq.trans (State.formExposures_changes _ _ .latched (by decide)) ?_
    refine Eq.trans (State.fillResults_changes _ .latched (by decide)) ?_
    exact State.setAsideAll_changes _ .latched (by decide)

theorem State.warmStart_latchStep {within : Bool} (s : State) : LatchStep within true s s.warmStart := by
  refine .of_fade fun k h => ?_
  rw [State.warmStart_latched, BitVec.getLsbD_and, Bool.and_eq_true] at h
  exact h.1

theorem State.coldStart_latchStep {within : Bool} (s : State) : LatchStep within true s s.coldStart :=
  .of_fade fun k h => by simp [State.coldStart, State.reset, Monitor.reset] at h

theorem State.powerUp_latchStep {within : Bool} (s : State) : LatchStep within true s s.powerUp := by
  unfold State.powerUp
  dsimp only
  split
  · exact State.warmStart_latchStep { s with power := true }
  · exact State.coldStart_latchStep { s with power := true }

theorem clearMonitor_latchStep {within : Bool} (s : State) (x : BitVec 13) :
    LatchStep within true s (s.clearMonitor x).1 := by
  refine .of_fade fun k h => ?_
  simp only [State.clearMonitor, clearedLatches, BitVec.getLsbD_and, Bool.and_eq_true] at h
  exact h.1

theorem enrolled_latchStep {within clears : Bool} {f : Settings → Effect} {s : State}
    (h : ∀ st, LatchStep within clears s (f st s).1) : LatchStep within clears s (enrolled f s).1 :=
  enrolled_ind (.of_eq rfl) h

theorem runCommand_latchStep (t : Moment) (token : Token) (c : Command) (s : State) :
    LatchStep (mayLatchWithin (c.instr t token)) (mayClearLatches (c.instr t token)) s (runCommand token c s).1 := by
  cases c with
  | enrol f => exact .of_changes (cmdEnrol_changes f s) (by decide)
  | join => exact .of_changes (cmdJoin_changes s) (by decide)
  | drain => exact .of_changes (cmdDrain_changes s) (by decide)
  | leave => exact .of_changes (cmdLeave_changes s) (by decide)
  | issue a v => exact .of_changes (cmdIssue_changes a v s) (by decide)
  | load r a => exact .of_changes (cmdLoad_changes r a s) (by decide)
  | cashout r => exact .of_changes (cmdCashout_changes r s) (by decide)
  | freeze r => exact .of_changes (cmdFreeze_changes r s) (by decide)
  | thaw r => exact .of_changes (cmdThaw_changes r s) (by decide)
  | enquire r => exact .of_changes (cmdEnquire_changes r token s) (by decide)
  | authorize r a l => exact .of_changes (cmdAuthorize_changes r a l token s) (by decide)
  | capture r i a => exact .of_changes (cmdCapture_changes r i a token s) (by decide)
  | void r i => exact .of_changes (cmdVoid_changes r i token s) (by decide)
  | refund r n a => exact .of_changes (cmdRefund_changes r n a token s) (by decide)
  | closeDay => exact enrolled_latchStep fun st => .of_grow (s.closeDay_grows st)
  | report => exact .of_changes (cmdReport_changes s) (by decide)
  | setRate r f e => exact .of_changes (cmdSetRate_changes r f e s) (by decide)
  | readStatement => exact enrolled_latchStep fun st => .of_grow (s.readStatement_grows st)
  | readResult => exact .of_changes (cmdReadResult_changes s) (by decide)
  | peerStatus p => exact .of_changes (cmdPeerStatus_changes p s) (by decide)
  | clearPeer p => exact .of_changes (cmdClearPeer_changes p s) (by decide)
  | adjust p r l => exact .of_changes (cmdAdjust_changes p r l s) (by decide)
  | status => exact .of_eq rfl
  | clearMonitor x => exact enrolled_latchStep fun _ => clearMonitor_latchStep s _
  | restart => exact s.warmStart_latchStep
  | wipe =>
    change LatchStep _ _ s s.wipe.1
    unfold State.wipe
    split
    · exact .of_eq rfl
    · exact s.coldStart_latchStep

theorem State.write_latchStep {within clears : Bool} {run : Effect} (h : ∀ s, LatchStep within clears s (run s).1)
    (token : Token) (s : State) : LatchStep within clears s (State.write token run s) := by
  unfold State.write
  dsimp only
  split
  · exact .between (s.shiftOut_changes _) (h _) (State.respond_changes _ _ _) (by decide) (by decide) (by decide)
  · exact .of_eq rfl

theorem write_command_latchStep (t : Moment) (token : Token) (c : Command) (s : State) :
    LatchStep (mayLatchWithin (c.instr t token)) (mayClearLatches (c.instr t token)) s
      (State.write token (runCommand token c) s) := State.write_latchStep (runCommand_latchStep t token c) token s

theorem State.transfer_latchStep (s : State) (mosi : List Byte) : LatchStep true true s (s.transfer mosi) := by
  unfold State.transfer
  split
  · exact .of_eq rfl
  · rename_i kind bytes
    have block (s : State) : LatchStep true true s (runBlock bytes s).1 := by
      unfold runBlock
      cases parseBlock bytes with
      | some c => exact (runCommand_latchStep 0 _ c s).weaken
      | none => exact .of_eq rfl
    exact .ite (State.write_latchStep block _ s)
      (.ite (.of_changes (s.read_changes _) (by decide)) (.of_changes (s.shiftOut_changes _) (by decide)))

theorem whenEnrolled_latchStep {within clears : Bool} (s : State) (f : Settings → State)
    (h : ∀ st, LatchStep within clears s (f st)) : LatchStep within clears s (whenEnrolled s f) := by
  unfold whenEnrolled
  split
  · exact h _
  · exact .of_eq rfl

theorem work_latchStep (i : Instr) (s : State) : LatchStep (mayLatchWithin i) (mayClearLatches i) s (work i s) := by
  cases i with
  | enrol t token f => exact write_command_latchStep t token (.enrol f) s
  | join t token => exact write_command_latchStep t token .join s
  | drain t token => exact write_command_latchStep t token .drain s
  | leave t token => exact write_command_latchStep t token .leave s
  | issue t token a v => exact write_command_latchStep t token (.issue a v) s
  | load t token r a => exact write_command_latchStep t token (.load r a) s
  | cashout t token r => exact write_command_latchStep t token (.cashout r) s
  | freeze t token r => exact write_command_latchStep t token (.freeze r) s
  | thaw t token r => exact write_command_latchStep t token (.thaw r) s
  | enquire t token r => exact write_command_latchStep t token (.enquire r) s
  | authorize t token r a l => exact write_command_latchStep t token (.authorize r a l) s
  | capture t token r i a => exact write_command_latchStep t token (.capture r i a) s
  | void t token r i => exact write_command_latchStep t token (.void r i) s
  | refund t token r n a => exact write_command_latchStep t token (.refund r n a) s
  | closeDay t token => exact write_command_latchStep t token .closeDay s
  | report t token => exact write_command_latchStep t token .report s
  | setRate t token r f e => exact write_command_latchStep t token (.setRate r f e) s
  | readStatement t token => exact write_command_latchStep t token .readStatement s
  | readResult t token => exact write_command_latchStep t token .readResult s
  | peerStatus t token p => exact write_command_latchStep t token (.peerStatus p) s
  | clearPeer t token p => exact write_command_latchStep t token (.clearPeer p) s
  | adjust t token p r l => exact write_command_latchStep t token (.adjust p r l) s
  | status t token => exact write_command_latchStep t token .status s
  | clearMonitor t token x => exact write_command_latchStep t token (.clearMonitor x) s
  | restart t token => exact write_command_latchStep t token .restart s
  | wipe t token => exact write_command_latchStep t token .wipe s
  | malformedBlock | writeRefusedBusy | responseRead => exact s.transfer_latchStep _
  | askReceived | takeReceived | freeReceived | creditReceived | grantReceived | takenReceived | freedReceived
  | creditedReceived | refuseReceived | tallyReceived | checkReceived | beaconReceived | frameClash | malformedFrame
  | unreadableHeader | headerOnlyFrame => exact .of_grow (s.hearGood_grows _ _)
  | badFrame | fragment => exact .of_grow (s.hearBits_grows _)
  | lineIdle => exact .of_changes s.lineIdle_changes (by decide)
  | lineBusy => exact .of_changes s.lineBusy_changes (by decide)
  | answerStart => exact .of_changes s.startAnswer_changes (by decide)
  | requestStart => exact .of_changes (whenEnrolled_changes s _ s.startRequest_changes) (by decide)
  | spacingExpiry => exact .of_changes (whenEnrolled_changes s _ s.spacingExpiry_changes) (by decide)
  | collision =>
    exact .of_changes (s.collide_changes.comp (State.drainTest_changes _) (rs := frameParts ++ withdrawParts) (by decide)
      (by decide)) (by decide)
  | frameSent =>
    exact .of_changes (s.frameSent_changes.comp (State.drainTest_changes _) (rs := frameParts ++ withdrawParts)
      (by decide) (by decide)) (by decide)
  | requestQueueFill => exact .of_changes s.fillRequests_changes (by decide)
  | beaconTime => exact .of_changes s.beaconTime_changes (by decide)
  | listenEnd => exact .of_changes s.listenOver_changes (by decide)
  | sendFailedExpiry => exact .of_changes s.sendFailedExpiry_changes (by decide)
  | answerDroppedExpiry => exact .of_changes s.answerDroppedExpiry_changes (by decide)
  | linkNoiseExpiry => exact .of_changes s.noiseExpiry_changes (by decide)
  | drainComplete => exact .of_changes s.drainTest_changes (by decide)
  | replyTimeout =>
    exact .of_changes ((s.replyTimeout_changes _).comp (State.drainTest_changes _) (rs := endParts ++ withdrawParts)
      (by decide) (by decide)) (by decide)
  | resultQueueFill => exact .of_changes s.fillResults_changes (by decide)
  | pendingClose => exact whenEnrolled_latchStep s _ fun st => .of_grow (s.pendingClose_grows st)
  | sweepStep => exact whenEnrolled_latchStep s _ fun st => .of_grow (s.sweepStep_grows st)
  | sealWindowExpiry => exact whenEnrolled_latchStep s _ fun st => .of_grow (s.windowExpiry_grows st)
  | makeSeal => exact whenEnrolled_latchStep s _ fun st => .of_grow (s.sealDue_grows st)
  | deferredSealCompletion => exact whenEnrolled_latchStep s _ fun st => .of_grow (s.completeDeferred_grows st)
  | holdDeadline =>
    exact .of_changes ((whenEnrolled_changes s _ fun st => s.holdDeadline_changes st _).comp (State.drainTest_changes _)
      (rs := holdParts ++ withdrawParts) (by decide) (by decide)) (by decide)
  | peerAbsentTimeout => exact .of_changes (s.peerAbsent_changes _) (by decide)
  | nrst => exact .ite s.warmStart_latchStep (.of_eq rfl)
  | powerLoss => exact .of_eq rfl
  | coldStart | warmStart | retentionLoss => exact .of_eq rfl

/-- Every command is an operation that keeps to the rules of the latched flags, and the end of every operation. -/
theorem exec_latchStep {i : Instr} {s t : State} (h : exec i s = .next t) :
    ∃ u, t = finish u ∧ LatchStep (mayLatchWithin i) (mayClearLatches i) s u := by
  have ofEvent (e : exec i s = event i.moment (work i) s) :
      ∃ u, t = finish u ∧ LatchStep (mayLatchWithin i) (mayClearLatches i) s u :=
    ⟨_, (Host.Outcome.next.inj (e.symm.trans h)).symm, .ite (work_latchStep i (s.atMoment i.moment)) (.of_eq rfl)⟩
  cases i with
  | coldStart m =>
    exact ⟨_, (Host.Outcome.next.inj h).symm, .ite (.of_eq rfl) (s.atMoment m).powerUp_latchStep⟩
  | warmStart m =>
    exact ⟨_, (Host.Outcome.next.inj h).symm, .ite (.of_eq rfl) (s.atMoment m).powerUp_latchStep⟩
  | retentionLoss m => exact ⟨_, (Host.Outcome.next.inj h).symm, .of_eq rfl⟩
  | _ => exact ofEvent (exec_event _ s nofun nofun nofun)

/-! ### The end of every operation -/

/-- The end of an operation with main power: latches, ATTN, LDE and LTX formed afresh (R171, R176, R190). -/
theorem finish_powered {u : State} (h : u.power = true) :
    finish u = { relatch u with
      pins := { u.pins with attn := attnDue (relatch u), lde := u.lc.isDriving, ltx := u.lc.tx.level u.now } } := if_pos h

theorem finish_unpowered {u : State} (h : u.power = false) :
    finish u = { u with pins := { u.pins with attn := false, lde := false, ltx := none } } := if_neg (by simp [h])

theorem finish_power (u : State) : (finish u).power = u.power := finish_changes u .power (by decide)

theorem finish_liveBits (u : State) : liveBits (finish u) = liveBits u := by
  unfold finish
  split <;> rfl

theorem finish_enabledAt (u : State) (k : Nat) : enabledAt (finish u) k ↔ enabledAt u k := by
  unfold finish
  split <;> rfl

/-- A flag after the end of an operation: as it was, or with main power its source is enabled and its condition live. -/
theorem finish_latched (u : State) (k : Nat) : (finish u).mu.latched.getLsbD k = true ↔
    u.mu.latched.getLsbD k = true ∨ (u.power = true ∧ enabledAt u k ∧ (liveBits u).getLsbD k = true) := by
  cases h : u.power
  · rw [finish_unpowered h]
    simp
  · rw [finish_powered h]
    exact (relatch_latched u k).trans (by simp [enabledAt])

theorem attnDue_iff (s : State) : attnDue s = true ↔
    s.tp.results ≠ [] ∨ (∃ x ∈ s.su.slots, x.statement.kind = .sealed) ∨ errorFlag s = true := by
  simp [attnDue, sealWaits, or_assoc]

theorem Link.isDriving_iff (l : Link) : l.isDriving = true ↔ l.tx ≠ .idle := by
  unfold Link.isDriving
  cases l.tx <;> simp

/-- Each bit takes two halves of its cell, the first half the other level (R76). -/
theorem cellLevels_flatMap_get {l : List Bool} {d : Nat} {b : Bool} (h : l[d / 2]? = some b) :
    (l.flatMap cellLevels)[d]? = some (if d % 2 = 0 then !b else b) := by
  induction l generalizing d with
  | nil => simp at h
  | cons x l ih =>
    match d with
    | 0 => simp_all [cellLevels]
    | 1 => simp_all [cellLevels]
    | d + 2 =>
      have step : (d + 2) / 2 = d / 2 + 1 := by omega
      rw [step, List.getElem?_cons_succ] at h
      rw [Nat.add_mod_right]
      exact ih h

theorem Tx.level_driving {now start : Moment} {answer b : Bool} {bytes : List Byte}
    (h : (lineBits bytes)[(now - start) / 2]? = some b) :
    Tx.level now (.driving answer bytes start) = some (if (now - start) % 2 = 0 then !b else b) := by
  change ((lineBits bytes).flatMap cellLevels)[(now - start) / 1]? = _
  rw [Nat.div_one]
  exact cellLevels_flatMap_get h

/-- Settles O3: the sources in their order, the latch rules every command keeps to, and the end of every operation. -/
theorem monitorAndPinsSettled : Obligations.MonitorAndPinsSettled := by
  refine ⟨fun s => ?_, fun s => rfl, fun i s t h => ?_⟩
  · refine ⟨liveBits_source (x := .clash) rfl, liveBits_source (x := .saturated) rfl,
      (liveBits_source (x := .linkNoise) rfl).trans decide_eq_true_iff,
      (liveBits_source (x := .sendFailed) rfl).trans Option.isSome_iff_ne_none,
      (liveBits_source (x := .answerDropped) rfl).trans Option.isSome_iff_ne_none,
      ((liveBits_source (x := .trailFull) rfl).trans (trailFullLive_iff s)).trans ?_,
      (liveBits_source (x := .holdTableFull) rfl).trans (holdTableFullLive_iff s),
      (liveBits_source (x := .cycleBehind) rfl).trans ?_, liveBits_source (x := .reportLost) rfl,
      (liveBits_source (x := .peerAbsent) rfl).trans ?_, (liveBits_source (x := .peerWatch) rfl).trans ?_,
      (liveBits_source (x := .peerExposure) rfl).trans ?_, (liveBits_source (x := .peerBarred) rfl).trans ?_,
      shownBits_getLsbD s, errorFlag_iff s, warningFlag_iff s, Bool.and_eq_true_iff⟩
    · simp only [Cycles.isCurrent_iff]
    · simp [live, Option.isSome_iff_ne_none]
    · simp [live]
    · simp [live]
    · simp [live]
    · simp [live]
  · obtain ⟨u, rfl, settles, within, clears⟩ := exec_latchStep h
    intro enabled
    have hen (k : Nat) : enabled k ↔ enabledAt u k := finish_enabledAt u k
    simp only [hen, finish_latched, finish_liveBits, finish_power]
    refine ⟨fun k hk => ?_, fun hw k hk => ?_, fun hc k hk => .inl (clears hc k hk), fun hp => ?_, fun hp => ?_⟩
    · exact hk.elim (settles k) fun new => .inr new.2.1
    · exact hk.imp (within hw k) And.right
    · rw [finish_powered hp]
      exact ⟨attnDue_iff (relatch u), u.lc.isDriving_iff, fun idle => congrArg (Tx.level u.now) idle,
        fun answer bytes start b drives bit => (congrArg (Tx.level u.now) drives).trans (Tx.level_driving bit),
        fun k en live => .inr ⟨hp, en, live⟩⟩
    · rw [finish_unpowered hp]
      exact ⟨rfl, rfl, rfl⟩

end Sys2Proof.Machine
end

section
/-! The building of a statement (R157 to R161). -/

namespace Sys2Proof.Machine

/-! ### Chains of ADD (R4, note 3) -/

theorem chainSum_append (ts : List Total) (x : Total) : chainSum (ts ++ [x]) = (chainSum ts).add x := by
  simp [chainSum]

theorem Chain.add_of_stuck {c : Chain} (h : c.stuck = true) (x : Total) : c.add x = ⟨c.val, true, true⟩ := if_pos h

theorem Chain.add_of_running {c : Chain} (h : c.stuck = false) (x : Total) :
    c.add x = ⟨saturate (c.val + x.val), c.mark || x.mark || overflows (c.val + x.val), overflows (c.val + x.val)⟩ :=
  if_neg (by simp [h])

theorem Chain.add_of_fits {c : Chain} {x : Total} (h : c.stuck = false) (hf : overflows (c.val + x.val) = false) :
    c.add x = ⟨c.val + x.val, c.mark || x.mark, false⟩ := by
  rw [Chain.add_of_running h, hf, saturate_of_fits hf, Bool.or_false]

/-- A chain none of whose steps saturates is the exact sum (R4). -/
theorem chainSum_of_fits (ts : List Total)
    (h : ∀ i, i ≤ ts.length → overflows ((ts.take i).map Total.val).sum = false) :
    chainSum ts = ⟨(ts.map Total.val).sum, ts.any Total.mark, false⟩ := by
  induction ts using List.reverseRecOn with
  | nil => rfl
  | append_singleton ts x ih =>
    have before : ∀ i, i ≤ ts.length → overflows ((ts.take i).map Total.val).sum = false := fun i hi => by
      have := h i (by simp; omega)
      rwa [List.take_append_of_le_length hi] at this
    have whole := h (ts ++ [x]).length (le_refl _)
    rw [List.take_length, List.map_append, List.sum_append, List.map_singleton, List.sum_singleton] at whole
    rw [chainSum_append, ih before, Chain.add_of_fits rfl whole]
    simp

/-! ### The sum of counts (R160 step 3) -/

theorem countSum_append (ks : List Count) (k : Count) :
    countSum (ks ++ [k]) = ((countSum ks).1.plus k, (countSum ks).2 || (countSum ks).1.plusSat k) := by
  simp [countSum]

/-- The sum of counts: held at 999,999, marked above it or when a count is, and reported above it. -/
theorem countSum_eq (ks : List Count) :
    countSum ks =
      (⟨min 999999 (ks.map Count.n).sum, decide (999999 < (ks.map Count.n).sum) || ks.any Count.mark⟩,
        decide (999999 < (ks.map Count.n).sum)) := by
  induction ks using List.reverseRecOn with
  | nil => rfl
  | append_singleton ks k ih =>
    rw [countSum_append, ih]
    simp only [Count.plus, Count.plusSat, countMax_eq, List.map_append, List.sum_append, List.map_singleton,
      List.sum_singleton, List.any_append, List.any_cons, List.any_nil, Bool.or_false]
    by_cases past : 999999 < (ks.map Count.n).sum + k.n
    · by_cases before : 999999 < (ks.map Count.n).sum
      · have held : min 999999 (ks.map Count.n).sum = 999999 := by omega
        have all : min 999999 ((ks.map Count.n).sum + k.n) = 999999 := by omega
        simp only [held, all, past, before, decide_true, Bool.true_or]
        split
        · rfl
        · have : k.n = 0 := by omega
          simp [this]
      · have held : min 999999 (ks.map Count.n).sum = (ks.map Count.n).sum := by omega
        have all : min 999999 ((ks.map Count.n).sum + k.n) = 999999 := by omega
        simp [held, all, past]
    · have before : ¬999999 < (ks.map Count.n).sum := by omega
      have held : min 999999 (ks.map Count.n).sum = (ks.map Count.n).sum := by omega
      have all : min 999999 ((ks.map Count.n).sum + k.n) = (ks.map Count.n).sum + k.n := by omega
      simp [held, all, past, before]

/-! ### Lines and marks (R158, R161) -/

/-- A line shows every figure but those of a set just made. -/
theorem Figures.shows_iff (f : Figures) : f.shows = true ↔ ¬f = .zero := by
  rw [← not_iff_not, not_not]
  obtain ⟨⟨r, rm⟩, ⟨l, lm⟩, ⟨k, km⟩, ⟨c, cm⟩, ⟨a, am⟩⟩ := f
  simp [Figures.shows, Figures.zero, Total.zero, Count.zero, and_assoc]

theorem Figures.marked_iff (f : Figures) : f.marked = true ↔
    f.r.mark = true ∨ f.l.mark = true ∨ f.k.mark = true ∨ f.lateCount.mark = true ∨ f.lateAmount.mark = true := by
  simp [Figures.marked, or_assoc]

theorem OwnTotals.marked_iff (o : OwnTotals) : o.marked = true ↔
    o.s.mark = true ∨ o.u.mark = true ∨ o.x.mark = true ∨ o.q.mark = true := by
  simp [OwnTotals.marked, or_assoc]

theorem directionOf_stationPays (n : Total) : directionOf n = .stationPays ↔ n.val < 0 := by
  unfold directionOf
  split <;> simp <;> omega

theorem StatementSource.captures_eq (x : StatementSource) :
    x.captures =
      (⟨min 999999 (x.entries.map fun e => e.figures.k.n).sum,
        decide (999999 < (x.entries.map fun e => e.figures.k.n).sum) || x.entries.any fun e => e.figures.k.mark⟩,
        decide (999999 < (x.entries.map fun e => e.figures.k.n).sum)) := by
  rw [StatementSource.captures, countSum_eq, List.map_map, List.any_map]
  rfl

/-- A step of the building saturates: a chain, the sum of counts, or a subtraction of the net (R161). -/
theorem StatementSource.saturates_iff (x : StatementSource) :
    x.saturates = true ↔
      x.gross.stuck = true ∨ x.liability.stuck = true ∨ 999999 < (x.entries.map fun e => e.figures.k.n).sum ∨
        overflows (x.gross.val - x.fee.val) = true ∨
        overflows (saturate (x.gross.val - x.fee.val) - x.liability.val) = true := by
  have captures : x.captures.2 = true ↔ 999999 < (x.entries.map fun e => e.figures.k.n).sum := by
    rw [x.captures_eq]
    exact decide_eq_true_iff
  simp only [StatementSource.saturates, netSat, Bool.or_eq_true, captures, or_assoc]
  rfl

theorem StatementSource.saturatedFlag_iff (x : StatementSource) :
    x.saturatedFlag = true ↔
      (∃ l ∈ x.lines, l.figures.marked = true) ∨ x.own.marked = true ∨
        (x.gross.mark = true ∨ x.captures.1.mark = true ∨ x.liability.mark = true ∨ x.fee.mark = true ∨
          x.net.mark = true) ∨ x.saturates = true := by
  simp only [StatementSource.saturatedFlag, Bool.or_eq_true, List.any_eq_true, or_assoc]
  rw [or_left_comm (a := x.fee.mark = true)]

/-- Settles O50, from the two chains, the sum of counts and the lines. -/
theorem statementsAreBuilt : Obligations.StatementsAreBuilt := by
  refine ⟨fun x number => ?_, fun ts h => ?_, ⟨rfl, chainSum_append⟩, fun c t => ?_, fun s st x => ⟨rfl, rfl⟩⟩
  · refine ⟨⟨rfl, rfl, rfl, rfl, rfl, rfl⟩, rfl, rfl, congrArg (fun c => c.1.n) x.captures_eq, ?_, rfl, rfl,
      directionOf_stationPays x.net, rfl, List.filter_sublist, fun e he => ?_, x.saturates_iff, ?_⟩
    · change x.captures.1.mark = true ↔ _
      rw [x.captures_eq]
      simp
    · rw [← Figures.shows_iff]
      exact (List.mem_filter (p := fun e => e.figures.shows)).trans (and_iff_right he)
    · simp only [← Figures.marked_iff, ← OwnTotals.marked_iff]
      exact x.saturatedFlag_iff.trans (or_congr Iff.rfl (or_congr Iff.rfl (or_congr Iff.rfl x.saturates_iff)))
  · rw [chainSum_of_fits ts h]
    exact ⟨rfl, rfl⟩
  · refine ⟨fun h => Chain.add_of_stuck h t, fun h => Chain.add_of_fits h, fun h past => ?_, fun h past => ?_⟩
    · obtain ⟨hs, ho⟩ := saturate_above past
      rw [Chain.add_of_running h, hs, ho, Bool.or_true]
    · obtain ⟨hs, ho⟩ := saturate_below past
      rw [Chain.add_of_running h, hs, ho, Bool.or_true]

end Sys2Proof.Machine
end

section
/-! The till: what is written in IDLE, the tests a command meets before its own rule, and the number fields they read. -/

namespace Sys2Proof.Machine

/-! ### A command taken in IDLE (R179) -/

theorem State.begin_eq {s : State} (hi : s.tp.state = .idle) (t : Moment) :
    (s.atMoment t).shiftOut [(s.atMoment t).stateByte] = begun s t := by
  rw [State.stateByte_idle (s.atMoment t) hi]
  rfl

/-- A write transfer to an IDLE port runs from the state it has begun in, and its response is placed (R179). -/
theorem write_says {s u : State} {t : Moment} {token : Token} {run : Effect} {status : Status} {values : List Value}
    (hp : s.power = true) (hi : s.tp.state = .idle) (hr : run (begun s t) = (u, ⟨status, values⟩)) :
    event t (State.write token run) s = .next (finish (answered u token status values)) := by
  rw [event_powered hp, State.write, State.begin_eq hi, if_pos (show (begun s t).tp.state = .idle from hi), hr]
  rfl

/-- A refusal changes nothing but the port. -/
theorem write_refuses {s : State} {t : Moment} {token : Token} {run : Effect} {status : Status} (hp : s.power = true)
    (hi : s.tp.state = .idle) (hr : run (begun s t) = (begun s t, .plain status)) :
    event t (State.write token run) s = .next (finish (answered (begun s t) token status [])) := write_says hp hi hr

/-! ### The tests in their order (R180) -/

theorem withCycle_bad {c : CycleField} (h : readCycle c = none) (f : Nat → Effect) (s : State) :
    withCycle c f s = (s, .refuse .malformed) := by rw [withCycle, h]

theorem withCycle_good {c : CycleField} {n : Nat} (h : readCycle c = some n) (f : Nat → Effect) (s : State) :
    withCycle c f s = f n s := by rw [withCycle, h]

theorem withTrail_bad {k : Digits8Field} (h : bcdNat? 8 k.toNat = none) (f : Nat → Effect) (s : State) :
    withTrail k f s = (s, .refuse .malformed) := by rw [withTrail, h]

theorem withTrail_good {k : Digits8Field} {n : Nat} (h : bcdNat? 8 k.toNat = some n) (f : Nat → Effect) (s : State) :
    withTrail k f s = f n s := by rw [withTrail, h]

theorem withRef_bad {r : RefField} (h : readRef r = none) (f : CardRef → Effect) (s : State) :
    withRef r f s = (s, .plain .badReference) := by rw [withRef, h]

theorem withRef_good {r : RefField} {c : CardRef} (h : readRef r = some c) (f : CardRef → Effect) (s : State) :
    withRef r f s = f c s := by rw [withRef, h]

theorem withAmount_bad {a : AmountField} (h : readCardAmount a = none) (f : Nat → Effect) (s : State) :
    withAmount a f s = (s, .refuse .amount) := by rw [withAmount, h]

theorem withAmount_good {a : AmountField} {n : Nat} (h : readCardAmount a = some n) (f : Nat → Effect) (s : State) :
    withAmount a f s = f n s := by rw [withAmount, h]

/-- A command of the Card Table on a record that is not there (R19). -/
theorem State.onCard_unknown {s : State} {n : Nat} (h : s.findCard n = none) (f : State → Card → State × Reply) :
    s.onCard n f = (s, .refuse .unknownCard) := by rw [State.onCard, h]

/-! ### BCD numbers (R97) -/

/-- The number of the lower `k` decimal digits, each a nibble of `x`. -/
def nibbleSum (k x : Nat) : Nat := ((List.range k).map fun i => x / 16 ^ i % 16 * 10 ^ i).sum

theorem nibble_succ (x i : Nat) : x / 16 ^ (i + 1) % 16 = x / 16 / 16 ^ i % 16 := by
  rw [Nat.pow_succ', Nat.div_div_eq_div_mul]

theorem nibbleSum_succ (k x : Nat) : nibbleSum (k + 1) x = nibbleSum k (x / 16) * 10 + x % 16 := by
  have shift : ((List.range k).map fun i => x / 16 ^ (i + 1) % 16 * 10 ^ (i + 1)) =
      (List.range k).map fun i => x / 16 / 16 ^ i % 16 * 10 ^ i * 10 := by
    refine List.map_congr_left fun i _ => ?_
    rw [nibble_succ, Nat.pow_succ, Nat.mul_assoc]
  rw [nibbleSum, List.range_succ_eq_map, List.map_cons, List.map_map, List.sum_cons]
  change _ + ((List.range k).map fun i => x / 16 ^ (i + 1) % 16 * 10 ^ (i + 1)).sum = _
  rw [shift, List.sum_map_mul_right, nibbleSum]
  simp [Nat.add_comm]

theorem bcdNat?_of_digits {k x : Nat} (h : ∀ i, i < k → x / 16 ^ i % 16 ≤ 9) : bcdNat? k x = some (nibbleSum k x) := by
  induction k generalizing x with
  | zero => rfl
  | succ k ih =>
    have first : x % 16 ≤ 9 := by simpa using h 0 (Nat.succ_pos k)
    have rest : bcdNat? k (x / 16) = some (nibbleSum k (x / 16)) :=
      ih fun i hi => nibble_succ x i ▸ h (i + 1) (Nat.succ_lt_succ hi)
    rw [bcdNat?, if_pos first, rest, nibbleSum_succ]
    rfl

theorem bcdNat?_of_bad {k x : Nat} (h : ∃ i, i < k ∧ 9 < x / 16 ^ i % 16) : bcdNat? k x = none := by
  obtain ⟨i, hi, hx⟩ := h
  induction k generalizing x i with
  | zero => exact absurd hi (Nat.not_lt_zero i)
  | succ k ih =>
    rw [bcdNat?]
    split
    · cases i with
      | zero =>
        have : x % 16 = x / 16 ^ 0 % 16 := by simp
        omega
      | succ i => rw [ih i (Nat.lt_of_succ_lt_succ hi) (nibble_succ x i ▸ hx)]; rfl
    · rfl

/-- A BCD number of `k` digits stays below 10 to the `k`. -/
theorem bcdNat?_lt {k x n : Nat} (h : bcdNat? k x = some n) : n < 10 ^ k := by
  induction k generalizing x n with
  | zero => cases h; decide
  | succ k ih =>
    rw [bcdNat?] at h
    split at h
    · obtain ⟨m, hm, rfl⟩ := Option.map_eq_some_iff.1 h
      have := ih hm
      rw [Nat.pow_succ]
      omega
    · cases h

/-! ### Card-level amounts and card references (R13 to R15) -/

theorem readCardAmount_iff (a : AmountField) (x : Nat) :
    readCardAmount a = some x ↔ readUnsigned a = some x ∧ x ≤ 9999999 := by
  unfold readCardAmount
  cases readUnsigned a with
  | none => simp
  | some n =>
    have limit : Config.cardAmountMax = 9999999 := rfl
    simp only [limit, Option.some.injEq]
    split
    · simp only [Option.some.injEq]
      exact ⟨fun e => ⟨e, e ▸ ‹_›⟩, And.left⟩
    · simp only [reduceCtorEq, false_iff, not_and]
      exact fun e => e ▸ ‹_›

theorem checkDigit_eq (home n : Nat) :
    checkDigit home n =
      (7 * (home / 10 % 10) + 3 * (home % 10) + 1 * (n / 10 ^ 7 % 10) + 7 * (n / 10 ^ 6 % 10) +
        3 * (n / 10 ^ 5 % 10) + 1 * (n / 10 ^ 4 % 10) + 7 * (n / 10 ^ 3 % 10) + 3 * (n / 10 ^ 2 % 10) +
        1 * (n / 10 % 10) + 7 * (n % 10)) % 10 := by
  simp only [checkDigit, decimalDigits, checkWeights, List.nil_append, List.cons_append, List.zipWith_cons_cons,
    List.zipWith_nil_left, List.sum_cons, List.sum_nil, Nat.div_div_eq_div_mul]
  congr 1
  ring_nf

theorem checkDigit_lt (home n : Nat) : checkDigit home n < 10 := Nat.mod_lt _ (by decide)

/-- Eleven digits read as a card reference just when they are its two numbers and their check digit (R13, R14). -/
theorem readRef_iff (f : RefField) (home n : Nat) :
    readRef f = some ⟨home, n⟩ ↔
      bcdNat? 11 (f.toNat / 16) = some (home * 10 ^ 9 + n * 10 + checkDigit home n) ∧
        1 ≤ home ∧ home ≤ 63 ∧ 1 ≤ n ∧ n ≤ 99999999 := by
  have stations : Config.stationMax = 63 := rfl
  have digit := checkDigit_lt home n
  unfold readRef
  cases hd : bcdNat? 11 (f.toNat / 16) with
  | none => simp
  | some d =>
    have bound := bcdNat?_lt hd
    simp only [stations, Option.some.injEq]
    split
    · rename_i ok
      simp only [Option.some.injEq, CardRef.mk.injEq]
      constructor
      · rintro ⟨rfl, rfl⟩
        omega
      · rintro ⟨rfl, -, -, -, hn⟩
        omega
    · rename_i bad
      simp only [reduceCtorEq, false_iff]
      rintro ⟨rfl, hh, hh', hn, hn'⟩
      have e1 : (home * 10 ^ 9 + n * 10 + checkDigit home n) / 10 ^ 9 = home := by omega
      have e2 : (home * 10 ^ 9 + n * 10 + checkDigit home n) / 10 % 10 ^ 8 = n := by omega
      have e3 : (home * 10 ^ 9 + n * 10 + checkDigit home n) % 10 = checkDigit home n := by omega
      exact bad (by rw [e1, e2, e3]; exact ⟨hh, hh', hn, rfl⟩)

/-! ### What the tests refuse -/

section Refused

variable {s : State} {st : Settings}

theorem enrolled_begun (h : tillReady s st) (t : Moment) (f : Settings → Effect) :
    enrolled f (begun s t) = f st (begun s t) := enrolled_some (s := begun s t) h.2.1 f

/-- A command of the Card Table names a card of another station (R19). -/
theorem ownCard_notHome (h : tillReady s st) (t : Moment) {r : RefField} {c : CardRef} (hr : readRef r = some c)
    (hh : c.home ≠ st.station) (f : Settings → Nat → Effect) :
    ownCard r f (begun s t) = (begun s t, .plain .notHome) := by
  rw [ownCard, enrolled_begun h, withRef_good hr, if_neg hh]

/-- A command of the Card Table reaches the record of the serial. -/
theorem ownCard_home (h : tillReady s st) (t : Moment) {r : RefField} {c : CardRef} (hr : readRef r = some c)
    (hh : c.home = st.station) (f : Settings → Nat → Effect) :
    ownCard r f (begun s t) = f st c.serial (begun s t) := by
  rw [ownCard, enrolled_begun h, withRef_good hr, if_pos hh]

theorem ownCard_badReference (h : tillReady s st) (t : Moment) {r : RefField} (hr : readRef r = none)
    (f : Settings → Nat → Effect) : ownCard r f (begun s t) = (begun s t, .plain .badReference) := by
  rw [ownCard, enrolled_begun h, withRef_bad hr]

/-- A command that names a card of any station reads its reference (R180 tests 1 and 2). -/
theorem named_begun (h : tillReady s st) (t : Moment) {r : RefField} {c : CardRef} (hr : readRef r = some c)
    (f : Settings → CardRef → Effect) :
    enrolled (fun st => withRef r (f st)) (begun s t) = f st c (begun s t) :=
  (enrolled_begun h t _).trans (withRef_good hr _ _)

/-- A command whose reference does not read (R14). -/
theorem unread_begun (h : tillReady s st) (t : Moment) {r : RefField} (hr : readRef r = none)
    (f : Settings → CardRef → Effect) :
    enrolled (fun st => withRef r (f st)) (begun s t) = (begun s t, .plain .badReference) :=
  (enrolled_begun h t _).trans (withRef_bad hr _ _)

end Refused

/-- Settles O12: each test, met in its order, refuses the state the command has begun in. -/
theorem tillCommandsAreTested : Obligations.TillCommandsAreTested := by
  refine ⟨⟨fun k x => ⟨bcdNat?_of_bad, bcdNat?_of_digits⟩, readCardAmount_iff, fun _ => rfl, checkDigit_eq, readRef_iff⟩,
    fun s st t token h => ?_⟩
  obtain ⟨hp, -, hi⟩ := id h
  intro refused
  refine ⟨fun a v rate fee ref k => ⟨fun hv => ⟨?_, ?_⟩, fun hk => ?_, fun hv ha => ?_⟩,
    fun ref a l i k hr => ⟨⟨?_, ?_, ?_, ?_, ?_, ?_, ?_, ?_⟩, fun hk => ?_⟩,
    fun ref r a l i k hr => ⟨fun ha => ⟨?_, ?_, ?_, fun hk => ?_⟩, fun x ha hl => ?_, fun x y ha hl hxy => ?_⟩,
    fun ref home n a x hr ha => ⟨fun hh => ⟨?_, ?_, ?_, ?_⟩, fun hh hn => ⟨?_, ?_, ?_, ?_, ?_⟩⟩⟩
  · exact write_refuses hp hi (withCycle_bad hv _ _)
  · exact write_refuses hp hi (withCycle_bad hv _ _)
  · exact write_refuses hp hi (withTrail_bad hk _ _)
  · obtain ⟨v', hv⟩ := Option.ne_none_iff_exists'.1 hv
    refine write_refuses hp hi ((withCycle_good hv _ _).trans ?_)
    exact (enrolled_begun h t _).trans (withAmount_bad ha _ _)
  · exact write_refuses hp hi (unread_begun h t hr _)
  · exact write_refuses hp hi (ownCard_badReference h t hr _)
  · exact write_refuses hp hi (ownCard_badReference h t hr _)
  · exact write_refuses hp hi (ownCard_badReference h t hr _)
  · exact write_refuses hp hi (unread_begun h t hr _)
  · exact write_refuses hp hi (unread_begun h t hr _)
  · exact write_refuses hp hi (unread_begun h t hr _)
  · exact write_refuses hp hi (unread_begun h t hr _)
  · obtain ⟨k', hk⟩ := Option.ne_none_iff_exists'.1 hk
    refine write_refuses hp hi ((withTrail_good hk _ _).trans ?_)
    exact unread_begun h t hr _
  · refine write_refuses hp hi ((named_begun h t hr _).trans ?_)
    exact withAmount_bad ha _ _
  · refine write_refuses hp hi ((named_begun h t hr _).trans ?_)
    exact withAmount_bad ha _ _
  · refine write_refuses hp hi ((named_begun h t hr _).trans ?_)
    exact withAmount_bad ha _ _
  · obtain ⟨k', hk⟩ := Option.ne_none_iff_exists'.1 hk
    refine write_refuses hp hi ((withTrail_good hk _ _).trans ?_)
    refine (named_begun h t hr _).trans ?_
    exact withAmount_bad ha _ _
  · refine write_refuses hp hi ((named_begun h t hr _).trans ?_)
    refine (withAmount_good ha _ _).trans ?_
    exact withAmount_bad hl _ _
  · have noPair : (!formsRequest x y) = true := by simp [formsRequest, hxy]
    refine write_refuses hp hi ((named_begun h t hr _).trans ?_)
    refine (withAmount_good ha _ _).trans ((withAmount_good hl _ _).trans ?_)
    exact if_pos noPair
  · refine write_refuses hp hi ((named_begun h t hr _).trans ?_)
    refine (withAmount_good ha _ _).trans ?_
    exact if_neg hh
  · exact write_refuses hp hi (ownCard_notHome h t hr hh _)
  · exact write_refuses hp hi (ownCard_notHome h t hr hh _)
  · exact write_refuses hp hi (ownCard_notHome h t hr hh _)
  all_goals have unknown (f) : (begun s t).onCard n f = (begun s t, .refuse .unknownCard) :=
    State.onCard_unknown (s := begun s t) hn f
  · refine write_refuses hp hi ((named_begun h t hr _).trans ?_)
    refine (withAmount_good ha _ _).trans ((if_pos hh).trans ?_)
    exact unknown _
  · exact write_refuses hp hi ((ownCard_home h t hr hh _).trans (unknown _))
  · exact write_refuses hp hi ((ownCard_home h t hr hh _).trans (unknown _))
  · exact write_refuses hp hi ((ownCard_home h t hr hh _).trans (unknown _))
  · refine write_refuses hp hi ((named_begun h t hr _).trans ?_)
    exact (if_pos hh).trans (unknown _)

end Sys2Proof.Machine
end

section
/-! The bytes of fields (R97, R180): how numbers, digits and signs are spelled, and that a receiver reads them back. -/

namespace Sys2Proof.Machine

/-! ### What the part writes is what the types spell -/

theorem spellNum_succ (k n : Nat) : spellNum (k + 1) n = spellNum k (n / 256) ++ [BitVec.ofNat 8 n] := by
  have shift : (fun i => BitVec.ofNat 8 (n / 256 ^ i)) ∘ Nat.succ = fun i => BitVec.ofNat 8 (n / 256 / 256 ^ i) := by
    funext i
    rw [Function.comp_apply, Nat.pow_succ', Nat.div_div_eq_div_mul]
  rw [spellNum, List.range_succ_eq_map, List.reverse_cons, List.map_append, ← List.map_reverse, List.map_map, shift]
  simp [spellNum]

theorem beBytes_eq_spellNum (k n : Nat) : beBytes k n = spellNum k n := by
  induction k generalizing n with
  | zero => rfl
  | succ k ih => rw [beBytes, ih, spellNum_succ]

@[simp] theorem spellNum_length (k n : Nat) : (spellNum k n).length = k := by simp [spellNum]

theorem spellDigits_succ (k n : Nat) :
    spellDigits (k + 1) n = spellDigits k (n / 100) ++ [BitVec.ofNat 8 (16 * (n / 10 % 10) + n % 10)] := by
  have shift : (fun i => BitVec.ofNat 8 (16 * (n / 10 ^ (2 * i + 1) % 10) + n / 10 ^ (2 * i) % 10)) ∘ Nat.succ =
      fun i => BitVec.ofNat 8 (16 * (n / 100 / 10 ^ (2 * i + 1) % 10) + n / 100 / 10 ^ (2 * i) % 10) := by
    funext i
    have tens : 10 ^ (2 * i.succ + 1) = 100 * 10 ^ (2 * i + 1) := by rw [Nat.succ_eq_add_one]; ring
    have ones : 10 ^ (2 * i.succ) = 100 * 10 ^ (2 * i) := by rw [Nat.succ_eq_add_one]; ring
    rw [Function.comp_apply, tens, ones, Nat.div_div_eq_div_mul, Nat.div_div_eq_div_mul]
  rw [spellDigits, List.range_succ_eq_map, List.reverse_cons, List.map_append, ← List.map_reverse, List.map_map, shift]
  simp [spellDigits]

@[simp] theorem spellDigits_length (k n : Nat) : (spellDigits k n).length = k := by simp [spellDigits]

theorem beBytes_succ (k n : Nat) : beBytes (k + 1) n = beBytes k (n / 256) ++ [BitVec.ofNat 8 n] := rfl

theorem toBcd_succ (k n : Nat) : toBcd (k + 1) n = toBcd k (n / 10) * 16 + n % 10 := rfl

theorem bcdBytes_succ (k n : Nat) :
    bcdBytes (k + 1) n = bcdBytes k (n / 100) ++ [BitVec.ofNat 8 (16 * (n / 10 % 10) + n % 10)] := by
  have tens : n / 10 / 10 = n / 100 := by omega
  have two : 2 * (k + 1) = 2 * k + 1 + 1 := rfl
  have front (m : Nat) : ((m * 16 + n / 10 % 10) * 16 + n % 10) / 256 = m := by omega
  have last (m : Nat) : BitVec.ofNat 8 ((m * 16 + n / 10 % 10) * 16 + n % 10) =
      BitVec.ofNat 8 (16 * (n / 10 % 10) + n % 10) := by
    refine BitVec.eq_of_toNat_eq ?_
    simp only [BitVec.toNat_ofNat]
    omega
  rw [bcdBytes, two, toBcd_succ, toBcd_succ, beBytes_succ, tens, front, last, bcdBytes]

theorem bcdBytes_eq_spellDigits (k n : Nat) : bcdBytes k n = spellDigits k n := by
  induction k generalizing n with
  | zero => rfl
  | succ k ih => rw [bcdBytes_succ, spellDigits_succ, ih]

theorem signedBytes_eq_spellSigned (plus : Nat) (v : Int) : signedBytes plus v = spellSigned plus v := by
  rw [signedBytes, spellSigned, bcdBytes_eq_spellDigits]

/-- Eleven digits and a nibble F are five bytes of digits and one byte of the check digit and F (R13). -/
theorem beBytes_digits_nibble {m d : Nat} (hd : d < 10) :
    beBytes (5 + 1) (toBcd (10 + 1) (m * 10 + d) * 16 + 15) = bcdBytes 5 m ++ [BitVec.ofNat 8 (16 * d + 15)] := by
  have front : (m * 10 + d) / 10 = m := by omega
  have last : (m * 10 + d) % 10 = d := by omega
  have five : 10 = 2 * 5 := rfl
  have high (x : Nat) : ((x * 16 + d) * 16 + 15) / 256 = x := by omega
  have low (x : Nat) : BitVec.ofNat 8 ((x * 16 + d) * 16 + 15) = BitVec.ofNat 8 (16 * d + 15) := by
    refine BitVec.eq_of_toNat_eq ?_
    simp only [BitVec.toNat_ofNat]
    omega
  rw [beBytes_succ, toBcd_succ, front, last, high, low, bcdBytes]

theorem refBytes_eq_spellRef (home n : Nat) : refBytes home n = spellRef home n := by
  rw [spellRef, ← bcdBytes_eq_spellDigits, ← beBytes_digits_nibble (checkDigit_lt home n)]
  rfl

/-! ### Reading numbers of bytes -/

theorem beNat_append_one (bs : List Byte) (b : Byte) : beNat (bs ++ [b]) = beNat bs * 256 + b.toNat := by
  simp [beNat]

theorem beNat_spellNum (k n : Nat) : beNat (spellNum k n) = n % 256 ^ k := by
  induction k generalizing n with
  | zero => simp [spellNum, beNat, Nat.mod_one]
  | succ k ih =>
    have split : n % 256 ^ (k + 1) = n % 256 + 256 * (n / 256 % 256 ^ k) := by rw [Nat.pow_succ', Nat.mod_mul]
    rw [spellNum_succ, beNat_append_one, ih, BitVec.toNat_ofNat, split]
    omega

theorem beNat_lt (bs : List Byte) : beNat bs < 256 ^ bs.length := by
  induction bs using List.reverseRecOn with
  | nil => decide
  | append_singleton bs b ih =>
    have := b.isLt
    rw [beNat_append_one, List.length_append, List.length_singleton, Nat.pow_succ]
    omega

theorem spellNum_beNat (bs : List Byte) : spellNum bs.length (beNat bs) = bs := by
  induction bs using List.reverseRecOn with
  | nil => rfl
  | append_singleton bs b ih =>
    have small := b.isLt
    have high : (beNat bs * 256 + b.toNat) / 256 = beNat bs := by omega
    have low : BitVec.ofNat 8 (beNat bs * 256 + b.toNat) = b := by
      refine BitVec.eq_of_toNat_eq ?_
      rw [BitVec.toNat_ofNat]
      omega
    rw [beNat_append_one, List.length_append, List.length_singleton, spellNum_succ, high, low, ih]

/-! ### Fields in their places -/

theorem fieldAt_skip {pre : List Byte} {off : Nat} (h : pre.length ≤ off) (rest : List Byte) (len : Nat) :
    fieldAt (pre ++ rest) off len = fieldAt rest (off - pre.length) len := by
  rw [fieldAt, fieldAt, List.drop_append, List.drop_eq_nil_of_le h, List.nil_append]

theorem fieldAt_here {mid : List Byte} {len : Nat} (h : mid.length = len) (post : List Byte) :
    fieldAt (mid ++ post) 0 len = beNat mid := by
  rw [fieldAt, List.drop_zero, List.take_append_of_le_length h.ge, List.take_of_length_le h.le]

theorem fieldAt_whole {mid : List Byte} {len : Nat} (h : mid.length = len) : fieldAt mid 0 len = beNat mid := by
  rw [fieldAt, List.drop_zero, List.take_of_length_le h.le]

/-- The field of `len` bytes that stands behind `pre`. -/
theorem fieldAt_at {bs pre mid post : List Byte} {off len : Nat} (hb : bs = pre ++ (mid ++ post))
    (hp : pre.length = off) (hm : mid.length = len) : fieldAt bs off len = beNat mid := by
  rw [hb, fieldAt_skip hp.le, hp, Nat.sub_self, fieldAt_here hm]

theorem fieldAt_lt {bs : List Byte} {off len : Nat} : fieldAt bs off len < 256 ^ len :=
  lt_of_lt_of_le (beNat_lt _) (Nat.pow_le_pow_right (by decide) (List.length_take_le _ _))

/-- A field read as a word and spelled again is its bytes. -/
theorem spellNum_fieldAt {bs : List Byte} {off len w : Nat} (hw : 2 ^ w = 256 ^ len) (h : off + len ≤ bs.length) :
    spellNum len (BitVec.ofNat w (fieldAt bs off len)).toNat = (bs.drop off).take len := by
  have slice : ((bs.drop off).take len).length = len := by rw [List.length_take, List.length_drop]; omega
  rw [BitVec.toNat_ofNat, hw, Nat.mod_eq_of_lt fieldAt_lt]
  have again := spellNum_beNat ((bs.drop off).take len)
  rw [slice] at again
  exact again

/-- A word spelled and read again is itself. -/
theorem ofNat_beNat_spellNum {w len : Nat} (hw : 2 ^ w = 256 ^ len) (x : BitVec w) :
    BitVec.ofNat w (beNat (spellNum len x.toNat)) = x := by
  rw [beNat_spellNum, ← hw, Nat.mod_eq_of_lt x.isLt, BitVec.ofNat_toNat, BitVec.setWidth_eq]

/-! ### The CRC, bit by bit (R78) -/

/-- One bit into the register: the generator is applied when the register's first bit and the bit differ (R78). -/
def crcBit (r : BitVec 16) (bit : Bool) : BitVec 16 :=
  if r.getMsbD 0 ≠ bit then (r <<< 1) ^^^ 0x8005#16 else r <<< 1

/-- Adding the bits of a byte that are still to come shifts them up as the register shifts. -/
theorem crcBit_xor (r : BitVec 16) (b : Byte) (n : Nat) :
    (if (r ^^^ (b.setWidth 16 <<< (8 + n))).getMsbD 0 then ((r ^^^ (b.setWidth 16 <<< (8 + n))) <<< 1) ^^^ 0x8005#16
      else (r ^^^ (b.setWidth 16 <<< (8 + n))) <<< 1) =
      crcBit r (b.getMsbD n) ^^^ (b.setWidth 16 <<< (8 + (n + 1))) := by
  have first : (b.setWidth 16 <<< (8 + n)).getMsbD 0 = b.getMsbD n := by
    rcases Nat.lt_or_ge n 8 with h | h
    · have place : 15 - (8 + n) = 7 - n := by omega
      simp [BitVec.getMsbD, h, place]
      omega
    · have past : 15 < 8 + n := by omega
      simp [BitVec.getMsbD, past, Nat.not_lt.2 h]
  have shift : (b.setWidth 16 <<< (8 + n)) <<< 1 = b.setWidth 16 <<< (8 + (n + 1)) := by
    rw [← BitVec.shiftLeft_add]
    rfl
  rw [BitVec.getMsbD_xor, first, BitVec.shiftLeft_xor_distrib, shift, crcBit]
  have swap (x y z : BitVec 16) : x ^^^ y ^^^ z = x ^^^ z ^^^ y := by ac_rfl
  cases r.getMsbD 0 <;> cases b.getMsbD n <;> simp [swap _ _ 0x8005#16]

theorem crcByte_eq_bits (r : BitVec 16) (b : Byte) : crcByte r b = ((List.range 8).map b.getMsbD).foldl crcBit r := by
  have steps (n : Nat) : (List.range n).foldl
      (fun r _ => if r.getMsbD 0 then (r <<< 1) ^^^ 0x8005#16 else r <<< 1) (r ^^^ (b.setWidth 16 <<< 8)) =
      ((List.range n).map b.getMsbD).foldl crcBit r ^^^ (b.setWidth 16 <<< (8 + n)) := by
    induction n with
    | zero => rfl
    | succ n ih =>
      rw [List.range_succ, List.foldl_append, ih, List.map_append, List.foldl_append]
      exact crcBit_xor _ b n
  have gone : b.setWidth 16 <<< (8 + 8) = 0#16 := BitVec.shiftLeft_eq_zero (by decide)
  rw [crcByte, steps 8, gone, BitVec.xor_zero]

theorem crc16_eq_bits (bytes : List Byte) :
    crc16 bytes = (bytes.flatMap fun b => (List.range 8).map b.getMsbD).foldl crcBit 0xFFFF#16 := by
  rw [crc16, List.foldl_flatMap]
  exact congrArg (fun f => List.foldl f 0xFFFF#16 bytes) (funext fun r => funext fun b => crcByte_eq_bits r b)

end Sys2Proof.Machine
end

section
/-! Transfers of the terminal port (R179) and the bytes of a response block (R180). -/

namespace Sys2Proof.Machine

/-! ### A transfer by its first byte -/

theorem State.transfer_write (s : State) (bytes : List Byte) :
    s.transfer (0xC1#8 :: bytes) = State.write (blockToken bytes) (runBlock bytes) s := rfl

theorem State.transfer_read (s : State) (bytes : List Byte) : s.transfer (0xC2#8 :: bytes) = s.read bytes.length := rfl

theorem State.transfer_other (s : State) {first : Byte} (hw : first ≠ 0xC1#8) (hr : first ≠ 0xC2#8) (bytes : List Byte) :
    s.transfer (first :: bytes) = s.shiftOut [s.stateByte] := by
  rw [State.transfer, if_neg hw, if_neg hr]

theorem State.write_busy {s : State} (h : s.tp.state ≠ .idle) (token : Token) (run : Effect) :
    State.write token run s = (s.shiftOut [s.stateByte]).countBusy := by
  rw [State.write, if_neg (show (s.shiftOut [s.stateByte]).tp.state ≠ .idle from h)]

theorem State.read_ready {s : State} {r : Response} (h : s.tp.state = .ready) (hr : s.tp.response = some r) (n : Nat) :
    s.read n = { s.shiftOut (0x02#8 :: r.bytes.take n) with
      tp := if r.bytes.length ≤ n then { s.tp with state := .idle, response := none, busy := 0 } else s.tp } := by
  have byte : s.stateByte = 0x02#8 := by rw [State.stateByte, h]; rfl
  rw [State.read, h, hr, byte]
  by_cases hl : r.bytes.length ≤ n
  · simp only [if_pos hl]
    rfl
  · simp only [if_neg hl]
    rfl

theorem State.read_empty {s : State} (h : s.tp.state ≠ .ready) (n : Nat) :
    s.read n = s.shiftOut (s.stateByte :: List.replicate n 0xFF#8) := by
  unfold State.read
  split
  · exact absurd ‹_› h
  · rfl

theorem runBlock_malformed {block : List Byte} (h : parseBlock block = none) (s : State) :
    runBlock block s = (s, .refuse .malformed) := by rw [runBlock, h]

/-- Every transfer is answered as an event of the port (R179, R190). -/
theorem transfer_next {s : State} (hp : s.power = true) (t : Moment) (mosi : List Byte) :
    event t (·.transfer mosi) s = .next (finish ((s.atMoment t).transfer mosi)) := event_powered hp t _

/-- Settles O13: the response is spelled field by field, and a transfer does what its first byte and the port's state
say. -/
theorem portTransfers : Obligations.PortTransfers := by
  refine ⟨fun r => ?_, ⟨rfl, rfl, rfl, rfl⟩, ⟨rfl, rfl, rfl, rfl⟩, ⟨rfl, rfl, rfl, rfl⟩, ⟨rfl, rfl, rfl, rfl, rfl⟩,
    fun s t bytes hp => ⟨fun hi hb => ?_, fun hi => ?_, fun r hr hs => ?_, fun hr => ?_, fun first hw hr => ?_⟩⟩
  · intro reason status value values
    have reasons (x : Reason) : Reason.code x = reason x := by cases x <;> rfl
    have statuses (x : Status) : x.code = status x := by
      cases x with
      | reason y => exact reasons y
      | _ => rfl
    have valueBytes (x : Value) : x.bytes = value x := by
      cases x with
      | amount n => exact signedBytes_eq_spellSigned 0 n
      | marked x => exact signedBytes_eq_spellSigned _ _
      | count c =>
        refine congrArg₂ List.cons ?_ (bcdBytes_eq_spellDigits 3 c.n)
        split <;> rfl
      | cycle c =>
        cases c with
        | none => rfl
        | some n => exact bcdBytes_eq_spellDigits 3 n
      | flag b => cases b <;> rfl
      | reference home n => exact refBytes_eq_spellRef home n
      | digits8 n => exact bcdBytes_eq_spellDigits 4 n
      | num1 n => exact beBytes_eq_spellNum 1 n
      | num2 n => exact beBytes_eq_spellNum 2 n
      | token x => exact beBytes_eq_spellNum 4 x.toNat
      | noReference => rfl
    have allBytes : (r.values.map Value.bytes).flatten = values := by
      rw [show Value.bytes = value from funext valueBytes]
      rfl
    refine ⟨?_, reasons⟩
    rw [Response.bytes, allBytes, statuses]
    simp only [beBytes_eq_spellNum]
    rfl
  · exact write_says hp hi (runBlock_malformed hb _)
  · refine (transfer_next hp t _).trans ?_
    rw [State.transfer_write, State.write_busy (s := s.atMoment t) hi]
    rfl
  · refine (transfer_next hp t _).trans ?_
    rw [State.transfer_read, State.read_ready (s := s.atMoment t) hr hs]
    rfl
  · refine (transfer_next hp t _).trans ?_
    rw [State.transfer_read, State.read_empty (s := s.atMoment t) hr]
    rfl
  · intro left
    have other : event t (·.transfer (first :: bytes)) s = left := by
      rw [transfer_next hp, State.transfer_other _ hw hr]
      rfl
    exact ⟨other, other, other⟩

end Sys2Proof.Machine
end

section
/-! The bodies and headers of frames: their fields read, and the table of kinds and lengths (R86, R87, R97, R98). -/

namespace Sys2Proof.Machine

/-! ### The number fields of a frame -/

theorem readFrameRef_iff (f : RefField) (c : CardRef) :
    readFrameRef f = some c ↔ f.toNat % 16 = 15 ∧ readRef f = some c := by
  unfold readFrameRef
  split <;> simp [*]

theorem readDigits8_iff (f : Digits8Field) (n : Nat) :
    readDigits8 f = some n ↔ bcdNat? 8 f.toNat = some n ∧ n ≠ 0 := by
  unfold readDigits8
  rcases bcdNat? 8 f.toNat with _ | _ | m
  · simp
  · simp
    omega
  · simp
    omega

theorem readCycle1_iff (f : CycleField) (n : Nat) :
    readCycle1 f = some n ↔ bcdNat? 6 f.toNat = some n ∧ n ≠ 0 := by
  unfold readCycle1 readCycle
  rcases bcdNat? 6 f.toNat with _ | _ | m
  · simp
  · simp
    omega
  · simp
    omega

theorem readExpiry_iff (f : CycleField) (e : Option Nat) :
    readExpiry f = some e ↔ ∃ k, bcdNat? 6 f.toNat = some k ∧ e = if k = 0 then none else some k := by
  unfold readExpiry readCycle
  rcases bcdNat? 6 f.toNat with _ | _ | m <;> simp [eq_comm]

theorem readHoldId_iff (f : Num2Field) (i : Nat) : readHoldId f = some i ↔ i = f.toNat ∧ i ≠ 0 := by
  unfold readHoldId
  split
  · simp
    omega
  · simp
    omega

theorem reasonOfCode_iff (n : Nat) (r : Reason) : reasonOfCode n = some r ↔ r.code = n := by
  constructor
  · intro h
    simpa using List.find?_some h
  · rintro rfl
    cases r <;> rfl

theorem getLsbD_zero_iff (b : Byte) : b.getLsbD 0 = true ↔ b.toNat % 2 = 1 := by
  simp [BitVec.getLsbD, Nat.testBit_zero]

theorem getLsbD_one_iff {b : Byte} (h : b.toNat ≤ 3) : b.getLsbD 1 = true ↔ 2 ≤ b.toNat := by
  rw [BitVec.getLsbD, Nat.testBit_succ, Nat.testBit_zero, decide_eq_true_iff]
  omega

theorem formsRequest_iff (a l : Nat) : formsRequest a l = true ↔ l ≤ a := by rw [formsRequest, decide_eq_true_iff]

theorem mem_refusableKinds (k : Nat) : k ∈ refusableKinds ↔ k = 0x10 ∨ k = 0x12 ∨ k = 0x14 ∨ k = 0x16 := by
  simp [refusableKinds, kindAsk, kindTake, kindFree, kindCredit]

/-! ### The header (R86) -/

theorem readSenderState_iff (b : Byte) (st : SenderState) :
    readSenderState b = some st ↔ (b = 0x01#8 ∧ st = .active) ∨ (b = 0x02#8 ∧ st = .draining) := by
  have one : b.toNat = 1 ↔ b = 0x01#8 := ⟨fun h => BitVec.eq_of_toNat_eq h, fun h => h ▸ rfl⟩
  have two : b.toNat = 2 ↔ b = 0x02#8 := ⟨fun h => BitVec.eq_of_toNat_eq h, fun h => h ▸ rfl⟩
  unfold readSenderState
  split
  · simp [one.1 ‹_›, eq_comm]
  · split
    · simp [two.1 ‹_›, eq_comm]
    · rw [one] at *
      rw [two] at *
      simp [*]

theorem readHeader_iff (h : RxHeader) (g : Header) :
    readHeader h = some g ↔
      1 ≤ h.source.toNat ∧ h.source.toNat ≤ 63 ∧ bcdNat? 6 h.cycle.toNat = some g.cycle ∧ g.cycle ≠ 0 ∧
        ((h.senderState = 0x01#8 ∧ g.senderState = .active) ∨ (h.senderState = 0x02#8 ∧ g.senderState = .draining)) ∧
        g.dest = h.dest.toNat ∧ g.source = h.source.toNat ∧ g.tag = h.tag.toNat := by
  obtain ⟨dest, source, cycle, state, tag⟩ := g
  have stations : Config.stationMax = 63 := rfl
  simp only [readHeader, Option.bind_eq_bind, Option.bind_eq_some_iff, readCycle1_iff, readSenderState_iff, stations,
    Option.ite_none_right_eq_some, Option.some.injEq, Header.mk.injEq]
  constructor
  · rintro ⟨_, hc, _, hs, hr, rfl, rfl, rfl, rfl, rfl⟩
    exact ⟨hr.1, hr.2, hc.1, hc.2, hs, rfl, rfl, rfl⟩
  · rintro ⟨hl, hu, hc, hn, hs, rfl, rfl, rfl⟩
    exact ⟨cycle, ⟨hc, hn⟩, state, hs, ⟨hl, hu⟩, rfl, rfl, rfl, rfl, rfl⟩

/-! ### The bytes of a body and the body of bytes (R98) -/

theorem fieldAt_last {pre mid : List Byte} {off len : Nat} (hp : pre.length = off) (hm : mid.length = len) :
    fieldAt (pre ++ mid) off len = beNat mid := by
  rw [fieldAt_skip hp.le, hp, Nat.sub_self, fieldAt_whole hm]

/-- The first field of bytes, spelled again. -/
theorem spell_first {bs : List Byte} {len w : Nat} (hw : 2 ^ w = 256 ^ len) (h : len ≤ bs.length) :
    spellNum len (BitVec.ofNat w (fieldAt bs 0 len)).toNat = bs.take len := spellNum_fieldAt hw (by omega)

/-- The next field of bytes, spelled again behind those before it. -/
theorem spell_next {bs : List Byte} {off len w : Nat} (hw : 2 ^ w = 256 ^ len) (h : off + len ≤ bs.length) :
    bs.take off ++ spellNum len (BitVec.ofNat w (fieldAt bs off len)).toNat = bs.take (off + len) := by
  rw [spellNum_fieldAt hw h, List.take_add]

/-- The bytes of a raw body parse to it. -/
theorem parseBody_bytes (raw : RawBody) : parseBody raw.kind raw.bytes = some raw := by
  cases raw <;>
    simp [parseBody, RawBody.kind, RawBody.bytes, kindBeacon, kindAsk, kindGrant, kindTake, kindTaken, kindFree,
      kindFreed, kindCredit, kindCredited, kindRefuse, kindTally, kindCheck, fieldAt_skip, fieldAt_here, fieldAt_whole,
      ofNat_beNat_spellNum]

/-- A choice of the table that gives a body: either its condition held or the rest of the table gave it. -/
theorem spelled_of_ite {c : Prop} [Decidable c] {x raw : RawBody} {rest : Option RawBody} {kind : Nat}
    {body : List Byte} (h : (if c then some x else rest) = some raw) (here : c → body = x.bytes ∧ kind = x.kind)
    (later : rest = some raw → body = raw.bytes ∧ kind = raw.kind) : body = raw.bytes ∧ kind = raw.kind := by
  split at h
  · cases h
    exact here ‹_›
  · exact later h

/-- A body that parses is spelled by what it parses to, and has its kind. -/
theorem bytes_of_parseBody {kind : Nat} {body : List Byte} {raw : RawBody} (h : parseBody kind body = some raw) :
    body = raw.bytes ∧ kind = raw.kind := by
  have whole {n : Nat} (hl : body.length = n) : body.take n = body := List.take_of_length_le hl.le
  have spelled {x : RawBody} {n : Nat} (hl : body.length = n) (h : x.bytes = body.take n) : body = x.bytes :=
    (h.trans (whole hl)).symm
  refine spelled_of_ite h (fun ⟨hk, hl⟩ => ⟨List.eq_nil_of_length_eq_zero hl, hk⟩) fun h => ?_
  iterate 10
    refine spelled_of_ite h (fun ⟨hk, hl⟩ => ⟨spelled hl ?_, hk⟩) fun h => ?_
    · simp [RawBody.bytes, spell_first, spell_next, hl, -List.append_assoc, -BitVec.toNat_ofNat]
  exact spelled_of_ite h (fun ⟨hk, hl⟩ => ⟨List.eq_nil_of_length_eq_zero hl, hk⟩) fun h => by cases h

theorem parseBody_iff (kind : Nat) (body : List Byte) (raw : RawBody) :
    parseBody kind body = some raw ↔ body = raw.bytes ∧ kind = raw.kind :=
  ⟨bytes_of_parseBody, fun ⟨hb, hk⟩ => by rw [hb, hk, parseBody_bytes]⟩

/-! ### The fields of a body read (R87) -/

theorem RawBody.read_ask_iff (ref : RefField) (asked least : AmountField) (b : Body) :
    (RawBody.ask ref asked least).read = some b ↔ ∃ home n a x,
      readFrameRef ref = some ⟨home, n⟩ ∧ readUnsigned asked = some a ∧ readUnsigned least = some x ∧ x ≤ a ∧
        b = .ask home n a (leastAsRead a x) := by
  simp only [RawBody.read, Option.bind_eq_bind, Option.bind_eq_some_iff, Option.ite_none_right_eq_some,
    formsRequest_iff, Option.some.injEq]
  constructor
  · rintro ⟨⟨home, n⟩, hr, a, ha, x, hx, hl, rfl⟩
    exact ⟨home, n, a, x, hr, ha, hx, hl, rfl⟩
  · rintro ⟨home, n, a, x, hr, ha, hx, hl, rfl⟩
    exact ⟨⟨home, n⟩, hr, a, ha, x, hx, hl, rfl⟩

theorem RawBody.read_tally_iff (cycle : CycleField) (lifeRs lifeLs : AmountField) (marks : Byte) (b : Body) :
    (RawBody.tally cycle lifeRs lifeLs marks).read = some b ↔ ∃ (k : Nat) (r l : Total),
      (bcdNat? 6 cycle.toNat = some k ∧ k ≠ 0) ∧ readSigned lifeRs = some r.val ∧ readSigned lifeLs = some l.val ∧
        marks.toNat ≤ 3 ∧ (r.mark = true ↔ marks.toNat % 2 = 1) ∧ (l.mark = true ↔ 2 ≤ marks.toNat) ∧
        b = .tally k r l := by
  simp only [RawBody.read, Option.bind_eq_bind, Option.bind_eq_some_iff, Option.ite_none_right_eq_some, readCycle1_iff,
    Option.some.injEq]
  constructor
  · rintro ⟨k, hk, r, hr, l, hl, hm, rfl⟩
    exact ⟨k, ⟨r, marks.getLsbD 0⟩, ⟨l, marks.getLsbD 1⟩, hk, hr, hl, hm, getLsbD_zero_iff _, getLsbD_one_iff hm, rfl⟩
  · rintro ⟨k, ⟨r, rm⟩, ⟨l, lm⟩, hk, hr, hl, hm, hrm, hlm, rfl⟩
    have rBit : marks.getLsbD 0 = rm := Bool.eq_iff_iff.2 ((getLsbD_zero_iff marks).trans hrm.symm)
    have lBit : marks.getLsbD 1 = lm := Bool.eq_iff_iff.2 ((getLsbD_one_iff hm).trans hlm.symm)
    exact ⟨k, hk, r, hr, l, hl, hm, by rw [rBit, lBit]⟩

end Sys2Proof.Machine
end

section
/-! Frames that are not served (R76, R85 to R88): what makes one malformed, and what is then heard. -/

namespace Sys2Proof.Machine

/-! ### The station on the line (R85, R90) -/

theorem Link.onLine_iff (l : Link) : l.onLine = true ↔ l.station = .active ∨ l.station = .draining := by
  simp [Link.onLine]

theorem Link.receives_iff (l : Link) :
    l.receives = true ↔ (l.station = .listening ∨ l.station = .active ∨ l.station = .draining) ∧ l.tx = .idle := by
  have idle : (!l.isDriving) = true ↔ l.tx = .idle := by
    rw [Bool.not_eq_true', ← Bool.not_eq_true, Link.isDriving_iff, not_not]
  rw [Link.receives, Bool.and_eq_true, idle, Bool.or_eq_true, Link.onLine_iff, beq_iff_eq, or_comm]

/-! ### What a good frame does (R86) -/

section Hearing

variable {s : State} {st : Settings} {h : RxHeader}

theorem hearGood_deaf (hp : s.power = true) (hs : s.tp.settings = some st) (hr : s.lc.receives = false) (t : Moment)
    (x : RxBody) : event t (fun s => s.hearGood h x) s = .next (finish (s.atMoment t)) := by
  have deaf : ¬ (s.atMoment t).lc.receives = true := by simp [hr]
  rw [event_powered hp, State.hearGood, whenEnrolled_some (s := s.atMoment t) hs, if_neg deaf]

theorem hearGood_unreadable (hp : s.power = true) (hs : s.tp.settings = some st) (hh : readHeader h = none)
    (t : Moment) (x : RxBody) : event t (fun s => s.hearGood h x) s = .next (finish (s.atMoment t)) := by
  rw [event_powered hp, State.hearGood, whenEnrolled_some (s := s.atMoment t) hs]
  simp only [hh]
  split <;> rfl

/-- A frame of another station whose body is not for this one is heard by its header alone (R86 steps 2 and 3). -/
theorem hearGood_header {g : Header} (hp : s.power = true) (hs : s.tp.settings = some st)
    (hr : s.lc.receives = true) (hf : fromPeer st h g) (t : Moment) (x : RxBody)
    (hd : s.lc.station = .listening ∨ (g.dest ≠ 0 ∧ g.dest ≠ st.station)) :
    event t (fun s => s.hearGood h x) s = .next (finish (heardFrom s st t g).drainTest) := by
  have same : (heardFrom s st t g).lc.station = s.lc.station := heardFrom_changes s st t g .station (by decide)
  have header : ¬ (((s.atMoment t).onHeader st g).lc.onLine && (g.dest == 0 || g.dest == st.station)) = true := by
    change ¬ ((heardFrom s st t g).lc.onLine && (g.dest == 0 || g.dest == st.station)) = true
    rcases hd with hd | ⟨h0, ho⟩
    · simp [Link.onLine, same, hd]
    · simp [h0, ho]
  rw [event_powered hp, State.hearGood, whenEnrolled_some (s := s.atMoment t) hs,
    if_pos (show (s.atMoment t).lc.receives = true from hr)]
  simp only [hf.1, State.onReadable, hf.2, if_false]
  rw [if_neg header]
  rfl

end Hearing

/-! ### Malformed frames (R87) -/

theorem destinationFits_eq_false (kind dest : Nat) :
    destinationFits kind dest = false ↔ (kind = 0x01 ∧ dest ≠ 0) ∨ (kind ≠ 0x01 ∧ dest = 0) := by
  have beacon : kindBeacon = 0x01 := rfl
  rw [destinationFits, beacon]
  split <;> simp [*]

theorem tagFits_eq_false (kind tag : Nat) :
    tagFits kind tag = false ↔ ((kind = 0x01 ∨ kind = 0x20 ∨ kind = 0x21) ∧ tag ≠ 0) ∨
      (kind ≠ 0x01 ∧ kind ≠ 0x20 ∧ kind ≠ 0x21 ∧ tag = 0) := by
  have codes : kindBeacon = 0x01 ∧ kindTally = 0x20 ∧ kindCheck = 0x21 := ⟨rfl, rfl, rfl⟩
  obtain ⟨beacon, tally, check⟩ := codes
  rw [tagFits, beacon, tally, check]
  split
  · simp [*]
    omega
  · simp [*]
    omega

theorem RxBody.fit_eq_none {x : RxBody} {g : Header}
    (h : x.raw.bind RawBody.read = none ∨ destinationFits x.kind g.dest = false ∨ tagFits x.kind g.tag = false) :
    x.fit g = none := by
  unfold RxBody.fit
  rcases h with h | h | h <;> simp [h]

/-- A REFUSE MALFORMED goes to a request with a tag, and to nothing else. -/
theorem State.onMalformed_request {s : State} {g : Header} {kind : Nat} (h : kind ∈ refusableKinds ∧ g.tag ≠ 0) :
    s.onMalformed g kind = (s.protocolFault g.source).offerAnswer ⟨g.source, g.tag, .refuse kind .malformed 0⟩ := by
  rw [State.onMalformed, if_pos h]
  rfl

theorem State.onMalformed_other {s : State} {g : Header} {kind : Nat} (h : ¬ (kind ∈ refusableKinds ∧ g.tag ≠ 0)) :
    s.onMalformed g kind = s.protocolFault g.source := by
  rw [State.onMalformed, if_neg h]

/-! ### Frames that are no frames (R85) -/

theorem fieldAt_singleton {before after : List Byte} {n : Byte} {off : Nat} (h : before.length = off) :
    fieldAt (before ++ n :: after) off 1 = n.toNat := by
  rw [fieldAt_at (bs := before ++ n :: after) (mid := [n]) (len := 1) rfl h rfl]
  simp [beNat]

theorem fieldAt_pair {before after : List Byte} {a b : Byte} {off : Nat} (h : before.length = off) :
    fieldAt (before ++ a :: b :: after) off 2 = a.toNat * 256 + b.toNat := by
  rw [fieldAt_at (bs := before ++ a :: b :: after) (mid := [a, b]) (len := 2) rfl h rfl]
  simp [beNat]

theorem classify_short {bs : List Byte} (h : bs.length < 10) : classify bs = .fragment := by rw [classify, if_pos h]

theorem classify_oversize {bs : List Byte} {n : Nat} (hl : 10 ≤ bs.length) (hn : fieldAt bs 9 1 = n) (h : 40 < n) :
    classify bs = .oversize := by
  rw [classify, if_neg (by omega)]
  simp only [hn, if_pos h]

theorem classify_cut {bs : List Byte} {n : Nat} (hl : 10 ≤ bs.length) (hn : fieldAt bs 9 1 = n) (h : n ≤ 40)
    (hs : bs.length < 12 + n) : classify bs = .fragment := by
  rw [classify, if_neg (by omega)]
  simp only [hn, if_neg (Nat.not_lt.2 h), if_pos hs]

theorem classify_bad {bs : List Byte} {n : Nat} (hn : fieldAt bs 9 1 = n) (h : n ≤ 40)
    (hs : 12 + n ≤ bs.length) (hc : fieldAt bs (10 + n) 2 ≠ (crc16 (bs.take (10 + n))).toNat) :
    classify bs = .bad := by
  rw [classify, if_neg (by omega)]
  simp only [hn, if_neg (Nat.not_lt.2 h), if_neg (Nat.not_lt.2 hs), if_neg hc]

theorem classify_good {bs : List Byte} {n : Nat} (hn : fieldAt bs 9 1 = n) (h : n ≤ 40)
    (hs : 12 + n ≤ bs.length) (hc : fieldAt bs (10 + n) 2 = (crc16 (bs.take (10 + n))).toNat) :
    classify bs = .good
      { header :=
          { dest := .ofNat _ (fieldAt bs 0 1), source := .ofNat _ (fieldAt bs 1 1),
            cycle := .ofNat _ (fieldAt bs 3 3), senderState := .ofNat _ (fieldAt bs 6 1),
            tag := .ofNat _ (fieldAt bs 7 2) },
        kind := .ofNat _ (fieldAt bs 2 1), body := (bs.drop 10).take n } := by
  rw [classify, if_neg (by omega)]
  simp only [hn, if_neg (Nat.not_lt.2 h), if_neg (Nat.not_lt.2 hs), if_pos hc]

theorem classifyBits_none {bits : List Bool} (h : recognise bits = none) : classifyBits bits = .fragment := by
  rw [classifyBits, h]

theorem classifyBits_some {bits rest : List Bool} (h : recognise bits = some rest) :
    classifyBits bits = classify (packBytes rest) := by rw [classifyBits, h]

/-- A bad frame or an oversize one is counted by a station that receives (R85). -/
theorem State.hearBits_counted {s : State} {bits : List Bool} (h : classifyBits bits = .bad ∨ classifyBits bits = .oversize) :
    s.hearBits bits = if s.lc.receives then s.countBad else s := by
  unfold State.hearBits
  rcases h with h | h <;> rw [h]

theorem State.hearBits_fragment {s : State} {bits : List Bool} (h : classifyBits bits = .fragment) :
    s.hearBits bits = s := by
  unfold State.hearBits
  rw [h]

/-! ### The obligation -/

/-- Settles O41: the tests of a frame in their order, and what a frame that fails one does. -/
theorem framesNotServed : Obligations.FramesNotServed := by
  refine ⟨readHeader_iff, fun kind body => ⟨fun hn => ?_, fun raw => ?_⟩, fun raw b => ?_,
    fun l => ⟨Link.isDriving_iff l, ?_, ?_⟩, fun s st t f hp hs => ⟨fun hh => ?_, fun hr => ⟨?_, ?_, ?_⟩, fun g hr hf => ?_⟩,
    fun s p => rfl, fun bits => ⟨classifyBits_none, fun rest hr => ⟨classifyBits_some hr, fun hl => ?_,
      fun before n after hb h9 => ⟨fun hn => ?_, fun hn hl => ?_, fun covered c1 c2 more hn hc hl hcrc => ?_⟩⟩⟩,
    fun s t heard hp => ⟨fun hr hc => ?_, fun hr hc => ?_, fun hc => ?_⟩⟩
  · refine Option.eq_none_iff_forall_ne_some.2 fun raw hraw => hn ?_
    obtain ⟨rfl, rfl⟩ := bytes_of_parseBody hraw
    cases raw <;> simp [RawBody.kind, RawBody.bytes, kindBeacon, kindAsk, kindGrant, kindTake, kindTaken, kindFree,
      kindFreed, kindCredit, kindCredited, kindRefuse, kindTally, kindCheck]
  · rw [parseBody_iff]
    cases raw <;> rfl
  · intro number cycle hold amount reads
    cases raw with
    | beacon => cases b <;> simp [RawBody.read, reads]
    | check => cases b <;> simp [RawBody.read, reads]
    | ask ref asked least =>
      rw [RawBody.read_ask_iff]
      cases b <;> simp [reads, amount, readFrameRef_iff, leastAsRead, and_assoc]
    | refuse refused reason value =>
      cases b <;> simp [RawBody.read, Option.bind_eq_some_iff, reads, amount, reasonOfCode_iff, mem_refusableKinds]
      grind
    | tally c lifeRs lifeLs marks =>
      rw [RawBody.read_tally_iff]
      cases b <;> simp [reads, cycle]
    | grant holdId granted residual available balance expiry =>
      cases b <;> simp [RawBody.read, Option.bind_eq_some_iff, readExpiry_iff, reads, amount]
      grind
    | take holdId serial x =>
      cases b <;> simp [RawBody.read, Option.bind_eq_some_iff, readHoldId_iff, readDigits8_iff, reads, number, hold, amount]
      grind
    | free holdId serial =>
      cases b <;> simp [RawBody.read, Option.bind_eq_some_iff, readHoldId_iff, readDigits8_iff, reads, number, hold]
    | _ =>
      cases b <;> simp [RawBody.read, Option.bind_eq_some_iff, readDigits8_iff, readCycle1_iff,
        reads, number, cycle, amount, and_assoc]
  · exact Link.onLine_iff l
  · exact Link.receives_iff l
  · exact hearGood_unreadable hp hs hh t _
  · exact hearGood_deaf hp hs hr t _
  · exact hearGood_deaf hp hs hr t _
  · exact hearGood_deaf hp hs hr t _
  · intro kind
    refine ⟨hearGood_header hp hs hr hf t _, fun ho hd bad => ?_⟩
    intro v request
    have none : RxBody.fit ⟨kind, parseBody kind f.body⟩ g = none := by
      refine RxBody.fit_eq_none ?_
      rw [destinationFits_eq_false, tagFits_eq_false, or_assoc]
      exact bad
    have heard : exec (.malformedFrame t f) s =
        .next (finish ((heardFrom s st t g).onMalformed g kind).drainTest) := by
      have idle : s.lc.isDriving = false := by
        rw [← Bool.not_eq_true, Link.isDriving_iff, not_not]
        exact ((Link.receives_iff _).1 hr).2
      refine (hearGood_next ⟨hp, hs, ho, idle⟩ hf t _ hd).trans ?_
      rw [State.readBody, none]
    simp only [heard]
    refine ⟨fun hq => ?_, fun hq => ?_⟩
    · rw [State.onMalformed_request ((mem_refusableKinds _).and Iff.rfl |>.2 hq)]
    · rw [State.onMalformed_other fun hk => hq ((mem_refusableKinds _).and Iff.rfl |>.1 hk)]
  · rw [classifyBits_some hr, classify_short hl]
  · rw [classifyBits_some hr, hb]
    exact classify_oversize (by simp; omega) (fieldAt_singleton h9) hn
  · rw [classifyBits_some hr, hb]
    exact classify_cut (by simp; omega) (fieldAt_singleton h9) hn (by simp; omega)
  · have count : fieldAt (packBytes rest) 9 1 = n.toNat := hb ▸ fieldAt_singleton h9
    rw [classifyBits_some hr]
    refine classify_bad count hn (by rw [hc]; simp; omega) ?_
    rw [hc, fieldAt_pair hl, List.take_left' hl]
    exact hcrc
  · refine (event_powered hp t (·.hearBits heard)).trans ?_
    simp only [State.hearBits_counted hc, if_pos (show (s.atMoment t).lc.receives = true from hr)]
    rfl
  · refine (event_powered hp t (·.hearBits heard)).trans ?_
    simp only [State.hearBits_counted hc, if_neg (show ¬ (s.atMoment t).lc.receives = true by simp [hr])]
  · refine (event_powered hp t (·.hearBits heard)).trans ?_
    simp only [State.hearBits_fragment hc]

end Sys2Proof.Machine
end

section
/-! Frames read back (R76, R78, R96 to R98): the words of a body's fields, and a receiver's reading of the bytes sent. -/

namespace Sys2Proof.Machine

/-! ### BCD digits written and read -/

theorem toBcd_lt (k n : Nat) : toBcd k n < 16 ^ k := by
  induction k generalizing n with
  | zero => exact Nat.one_pos
  | succ k ih =>
    have := ih (n / 10)
    rw [toBcd_succ, Nat.pow_succ]
    omega

theorem bcdNat?_toBcd {k n : Nat} (h : n < 10 ^ k) : bcdNat? k (toBcd k n) = some n := by
  induction k generalizing n with
  | zero =>
    obtain rfl : n = 0 := Nat.lt_one_iff.1 h
    rfl
  | succ k ih =>
    have low : (toBcd k (n / 10) * 16 + n % 10) % 16 = n % 10 := by omega
    have high : (toBcd k (n / 10) * 16 + n % 10) / 16 = toBcd k (n / 10) := by omega
    have digit : n % 10 ≤ 9 := by omega
    have split : n / 10 * 10 + n % 10 = n := by omega
    have rest : n / 10 < 10 ^ k := by
      rw [Nat.pow_succ] at h
      omega
    rw [toBcd_succ, bcdNat?, low, high, if_pos digit, ih rest, Option.map_some, split]

theorem spellDigits_eq_spellNum (k n : Nat) : spellDigits k n = spellNum k (toBcd (2 * k) n) := by
  rw [← bcdBytes_eq_spellDigits, bcdBytes, beBytes_eq_spellNum]

/-! ### The words of fields -/

theorem spellNum_mod (k n : Nat) : spellNum k (n % 256 ^ k) = spellNum k n := by
  have again := spellNum_beNat (spellNum k n)
  rwa [spellNum_length, beNat_spellNum] at again

/-- A number cut to a word spells the same. -/
theorem spellNum_word {w k : Nat} (hw : 2 ^ w = 256 ^ k) (n : Nat) : spellNum k (BitVec.ofNat w n).toNat = spellNum k n := by
  rw [BitVec.toNat_ofNat, hw, spellNum_mod]

theorem spellNum_cons (k n : Nat) : spellNum (k + 1) n = BitVec.ofNat 8 (n / 256 ^ k) :: spellNum k n := by
  rw [spellNum, List.range_succ, List.reverse_append]
  rfl

/-- The word of an amount: its sign byte and its twelve digits (R97). -/
def amountWord (v : Int) : AmountField := .ofNat _ ((if v < 0 then 1 else 0) * 2 ^ 48 + toBcd 12 v.natAbs)

theorem amountWord_toNat (v : Int) : (amountWord v).toNat = (if v < 0 then 1 else 0) * 2 ^ 48 + toBcd 12 v.natAbs := by
  have small := toBcd_lt 12 v.natAbs
  rw [amountWord, BitVec.toNat_ofNat]
  refine Nat.mod_eq_of_lt ?_
  split <;> omega

theorem spellSigned_eq_spellNum (v : Int) : spellSigned 0 v = spellNum 7 (amountWord v).toNat := by
  have small := toBcd_lt 12 v.natAbs
  have high (b : Nat) : (b * 2 ^ 48 + toBcd 12 v.natAbs) / 256 ^ 6 = b := by omega
  have low (b : Nat) : (b * 2 ^ 48 + toBcd 12 v.natAbs) % 256 ^ 6 = toBcd 12 v.natAbs := by omega
  rw [spellSigned, spellDigits_eq_spellNum, amountWord_toNat, spellNum_cons 6, high, ← spellNum_mod 6 (_ + _), low,
    Nat.zero_add]

theorem readSigned_amountWord {v : Int} (h : amountFits v) : readSigned (amountWord v) = some v := by
  have small := toBcd_lt 12 v.natAbs
  have limit : Config.amountMax = 999999999999 := rfl
  have fits : v.natAbs < 10 ^ 12 := by
    rw [amountFits, limit] at h
    omega
  have high (b : Nat) : (b * 2 ^ 48 + toBcd 12 v.natAbs) / 2 ^ 48 = b := by omega
  have low (b : Nat) : (b * 2 ^ 48 + toBcd 12 v.natAbs) % 2 ^ 48 = toBcd 12 v.natAbs := by omega
  rw [readSigned, amountWord_toNat, high, low, bcdNat?_toBcd fits]
  by_cases neg : v < 0
  · simp only [if_pos neg]
    exact congrArg some (by omega)
  · simp only [if_neg neg]
    exact congrArg some (Int.natAbs_of_nonneg (Int.not_lt.1 neg))

theorem readUnsigned_amountWord {n : Nat} (h : amountFits n) : readUnsigned (amountWord n) = some n := by
  rw [readUnsigned, readSigned_amountWord h]

/-- The word of a card reference: eleven digits and the filler nibble (R13, R97). -/
def refWord (home n : Nat) : RefField := .ofNat _ (toBcd 11 ((home * 10 ^ 8 + n) * 10 + checkDigit home n) * 16 + 15)

theorem spellRef_eq_spellNum (home n : Nat) : spellRef home n = spellNum 6 (refWord home n).toNat := by
  rw [refWord, spellNum_word rfl, ← refBytes_eq_spellRef, refBytes, beBytes_eq_spellNum]

theorem readFrameRef_refWord {home n : Nat} (h1 : 1 ≤ home) (h2 : home ≤ 63) (h3 : 1 ≤ n) (h4 : n ≤ 99999999) :
    readFrameRef (refWord home n) = some ⟨home, n⟩ := by
  have digit := checkDigit_lt home n
  have small := toBcd_lt 11 ((home * 10 ^ 8 + n) * 10 + checkDigit home n)
  have word : (refWord home n).toNat = toBcd 11 ((home * 10 ^ 8 + n) * 10 + checkDigit home n) * 16 + 15 := by
    rw [refWord, BitVec.toNat_ofNat]
    exact Nat.mod_eq_of_lt (by omega)
  have filler : (refWord home n).toNat % 16 = 15 := by omega
  have digits : (refWord home n).toNat / 16 = toBcd 11 ((home * 10 ^ 8 + n) * 10 + checkDigit home n) := by omega
  have number : (home * 10 ^ 8 + n) * 10 + checkDigit home n = home * 10 ^ 9 + n * 10 + checkDigit home n := by ring
  refine (readFrameRef_iff _ _).2 ⟨filler, (readRef_iff _ _ _).2 ⟨?_, h1, h2, h3, h4⟩⟩
  rw [digits, bcdNat?_toBcd (by omega), number]

theorem toNat_digits {w k n : Nat} (hw : 2 ^ w = 16 ^ k) : (BitVec.ofNat w (toBcd k n)).toNat = toBcd k n := by
  rw [BitVec.toNat_ofNat, hw, Nat.mod_eq_of_lt (toBcd_lt k n)]

theorem readDigits8_word {n : Nat} (h : 1 ≤ n) (hn : n ≤ 99999999) : readDigits8 (.ofNat _ (toBcd 8 n)) = some n := by
  rw [readDigits8_iff, toNat_digits rfl, bcdNat?_toBcd (by omega)]
  exact ⟨rfl, by omega⟩

theorem readCycle1_word {n : Nat} (h : 1 ≤ n) (hn : n ≤ 999999) : readCycle1 (.ofNat _ (toBcd 6 n)) = some n := by
  rw [readCycle1_iff, toNat_digits rfl, bcdNat?_toBcd (by omega)]
  exact ⟨rfl, by omega⟩

theorem readExpiry_word {e : Option Nat} (h : ∀ c, e = some c → 1 ≤ c ∧ c ≤ 999999) :
    readExpiry (.ofNat _ (toBcd 6 (e.getD 0))) = some e := by
  rw [readExpiry_iff, toNat_digits rfl]
  cases e with
  | none => exact ⟨0, bcdNat?_toBcd (by decide), rfl⟩
  | some c =>
    obtain ⟨low, high⟩ := h c rfl
    exact ⟨c, bcdNat?_toBcd (n := c) (by omega), by rw [if_neg (by omega)]⟩

theorem readHoldId_word {n : Nat} (h : 1 ≤ n) (hn : n ≤ 65535) : readHoldId (.ofNat _ n) = some n := by
  rw [readHoldId_iff, BitVec.toNat_ofNat, Nat.mod_eq_of_lt (by omega)]
  exact ⟨rfl, by omega⟩

/-! ### A body and its raw form -/

/-- The raw form of a body: the words its fields are spelled by. -/
def Body.raw : Body → RawBody
  | .beacon => .beacon
  | .ask home n a l => .ask (refWord home n) (amountWord a) (amountWord l)
  | .grant i g r v y e =>
    .grant (.ofNat _ i) (amountWord g) (amountWord r) (amountWord v) (amountWord y) (.ofNat _ (toBcd 6 (e.getD 0)))
  | .take i n a => .take (.ofNat _ i) (.ofNat _ (toBcd 8 n)) (amountWord a)
  | .taken n c r k y =>
    .taken (.ofNat _ (toBcd 8 n)) (amountWord c) (amountWord r) (.ofNat _ (toBcd 6 k)) (amountWord y)
  | .free i n => .free (.ofNat _ i) (.ofNat _ (toBcd 8 n))
  | .freed r y v => .freed (amountWord r) (amountWord y) (amountWord v)
  | .credit n k a => .credit (.ofNat _ (toBcd 8 n)) (.ofNat _ (toBcd 8 k)) (amountWord a)
  | .credited n a m k y =>
    .credited (.ofNat _ (toBcd 8 n)) (amountWord a) (amountWord m) (.ofNat _ (toBcd 6 k)) (amountWord y)
  | .refuse k r v => .refuse (.ofNat _ k) (.ofNat _ r.code) (amountWord v)
  | .tally k r l => .tally (.ofNat _ (toBcd 6 k)) (amountWord r.val) (amountWord l.val) (.ofNat _ (tallyMarks r l))
  | .check => .check

theorem Body.raw_kind (b : Body) : b.raw.kind = b.kind := by cases b <;> rfl

/-- The raw form of a body has the bytes of the body. -/
theorem Body.raw_bytes (b : Body) : b.raw.bytes = b.bytes := by
  have amount (v : Int) : amountBytes v = spellNum 7 (amountWord v).toNat := by
    rw [amountBytes, signedBytes_eq_spellSigned, spellSigned_eq_spellNum]
  have ref (home n : Nat) : refBytes home n = spellNum 6 (refWord home n).toNat := by
    rw [refBytes_eq_spellRef, spellRef_eq_spellNum]
  have digits8 (n : Nat) : bcdBytes 4 n = spellNum 4 (BitVec.ofNat 32 (toBcd 8 n)).toNat := by
    rw [bcdBytes, beBytes_eq_spellNum, spellNum_word rfl]
  have cycle (n : Nat) : bcdBytes 3 n = spellNum 3 (BitVec.ofNat 24 (toBcd 6 n)).toNat := by
    rw [bcdBytes, beBytes_eq_spellNum, spellNum_word rfl]
  have num2 (n : Nat) : beBytes 2 n = spellNum 2 (BitVec.ofNat 16 n).toNat := by
    rw [beBytes_eq_spellNum, spellNum_word rfl]
  have num1 (n : Nat) : beBytes 1 n = spellNum 1 (BitVec.ofNat 8 n).toNat := by
    rw [beBytes_eq_spellNum, spellNum_word rfl]
  cases b <;> simp only [Body.raw, RawBody.bytes, Body.bytes, cycleBytes, amount, ref, digits8, cycle, num1, num2]

theorem Body.bytes_length_le (b : Body) : b.bytes.length ≤ 33 := by
  rw [← Body.raw_bytes]
  cases b <;> simp [Body.raw, RawBody.bytes]

theorem tallyMarks_toNat (r l : Total) : (BitVec.ofNat 8 (tallyMarks r l)).toNat = tallyMarks r l := by
  cases hr : r.mark <;> cases hl : l.mark <;> simp [tallyMarks, hr, hl]

/-- A body whose fields fit is what its raw form reads as. -/
theorem Body.raw_read {b : Body} (h : b.fitsFields) : b.raw.read = some b := by
  have serials : Config.serialMax = 99999999 := rfl
  have counts : Config.countMax = 999999 := rfl
  have ids : Config.idMax = 65535 := rfl
  have stations : Config.stationMax = 63 := rfl
  cases b with
  | beacon => rfl
  | check => rfl
  | ask home n a l =>
    obtain ⟨h1, h2, h3, h4, ha, hl, hz⟩ := h
    have least : amountFits l := le_trans (by simpa using hl) ha
    have same : leastAsRead a l = l := by
      rw [leastAsRead]
      split <;> omega
    refine (RawBody.read_ask_iff _ _ _ _).2 ⟨home, n, a, l, readFrameRef_refWord h1 h2 h3 h4,
      readUnsigned_amountWord ha, readUnsigned_amountWord least, hl, by rw [same]⟩
  | grant i g r v y e =>
    obtain ⟨hi, hg, hr, hv, hy, he⟩ := h
    simp [Body.raw, RawBody.read, readUnsigned_amountWord, hg, hr, hv, hy, readExpiry_word he]
    omega
  | take i n a =>
    obtain ⟨hi, hi', hn, hn', ha⟩ := h
    simp [Body.raw, RawBody.read, readUnsigned_amountWord ha, readHoldId_word hi hi', readDigits8_word hn hn']
  | taken n c r k y =>
    obtain ⟨hn, hn', hc, hr, hk, hk', hy⟩ := h
    simp [Body.raw, RawBody.read, readUnsigned_amountWord, hc, hr, hy, readCycle1_word hk hk', readDigits8_word hn hn']
  | free i n =>
    obtain ⟨hi, hi', hn, hn'⟩ := h
    simp [Body.raw, RawBody.read, readHoldId_word hi hi', readDigits8_word hn hn']
  | freed r y v =>
    obtain ⟨hr, hy, hv⟩ := h
    simp [Body.raw, RawBody.read, readUnsigned_amountWord, hr, hy, hv]
  | credit n k a =>
    obtain ⟨hn, hn', hk, hk', ha⟩ := h
    simp [Body.raw, RawBody.read, readUnsigned_amountWord ha, readDigits8_word hk hk', readDigits8_word hn hn']
  | credited n a m k y =>
    obtain ⟨hn, hn', ha, hm, hk, hk', hy⟩ := h
    simp [Body.raw, RawBody.read, readUnsigned_amountWord, ha, hm, hy, readCycle1_word hk hk', readDigits8_word hn hn']
  | refuse k r v =>
    obtain ⟨hk, hv⟩ := h
    have small : k < 256 := by
      have := (mem_refusableKinds k).1 hk
      omega
    have code : r.code < 256 := by cases r <;> decide
    have reason : reasonOfCode r.code = some r := (reasonOfCode_iff _ _).2 rfl
    simp [Body.raw, RawBody.read, readUnsigned_amountWord hv, Nat.mod_eq_of_lt small, Nat.mod_eq_of_lt code, reason, hk]
  | tally k r l =>
    obtain ⟨hk, hk', hr, hl⟩ := h
    have cycle := readCycle1_word hk hk'
    rw [readCycle1_iff] at cycle
    refine (RawBody.read_tally_iff _ _ _ _ _).2 ⟨k, r, l, cycle, readSigned_amountWord hr, readSigned_amountWord hl, ?_⟩
    rw [tallyMarks_toNat]
    cases hr : r.mark <;> cases hl : l.mark <;> simp [tallyMarks, hr, hl]

/-! ### A frame sent and classed -/

/-- A number spelled and read as a word is its word. -/
theorem ofNat_beNat_word {w k : Nat} (hw : 2 ^ w = 256 ^ k) (n : Nat) :
    BitVec.ofNat w (beNat (spellNum k n)) = BitVec.ofNat w n := by
  refine BitVec.eq_of_toNat_eq ?_
  rw [beNat_spellNum, BitVec.toNat_ofNat, BitVec.toNat_ofNat, hw, Nat.mod_mod]

theorem spellNum_one (x : Byte) : spellNum 1 x.toNat = [x] := by
  simp [spellNum]

/-- The bytes of a frame before its CRC (R96). -/
def headerBytes (own cycle : Nat) (st : SenderState) (f : Frame) : List Byte :=
  spellNum 1 f.dest ++ spellNum 1 own ++ spellNum 1 f.body.kind ++ spellDigits 3 cycle ++ spellNum 1 st.code ++
    spellNum 2 f.tag ++ spellNum 1 f.body.bytes.length

theorem frameBytes_eq (own cycle : Nat) (st : SenderState) (f : Frame) :
    frameBytes own cycle st f = withCrc (headerBytes own cycle st f ++ f.body.bytes) := by
  simp only [frameBytes, beBytes_eq_spellNum, bcdBytes_eq_spellDigits]
  rfl

theorem headerBytes_length (own cycle : Nat) (st : SenderState) (f : Frame) :
    (headerBytes own cycle st f).length = 10 := by simp [headerBytes]

/-- A frame sent is classed good, its header fields those that were sent and its body the bytes of the body. -/
theorem classify_frameBytes (own cycle dest tag : Nat) (st : SenderState) (b : Body) :
    classify (frameBytes own cycle st ⟨dest, tag, b⟩) = .good
      { header :=
          { dest := .ofNat _ dest, source := .ofNat _ own, cycle := .ofNat _ (toBcd 6 cycle),
            senderState := .ofNat _ st.code, tag := .ofNat _ tag },
        kind := .ofNat _ b.kind, body := b.bytes } := by
  have short := b.bytes_length_le
  have length : (frameBytes own cycle st ⟨dest, tag, b⟩).length = 12 + b.bytes.length := by
    simp [frameBytes_eq, withCrc, headerBytes_length]
    omega
  have front : (headerBytes own cycle st ⟨dest, tag, b⟩ ++ b.bytes).length = 10 + b.bytes.length := by
    simp [headerBytes_length]
  have covered : (frameBytes own cycle st ⟨dest, tag, b⟩).take (10 + b.bytes.length) =
      headerBytes own cycle st ⟨dest, tag, b⟩ ++ b.bytes := by
    rw [frameBytes_eq, withCrc, List.take_left' front]
  have count : fieldAt (frameBytes own cycle st ⟨dest, tag, b⟩) 9 1 = b.bytes.length := by
    simp [frameBytes_eq, withCrc, headerBytes, fieldAt_skip, fieldAt_here, beNat_spellNum]
    omega
  have crc : fieldAt (frameBytes own cycle st ⟨dest, tag, b⟩) (10 + b.bytes.length) 2 =
      (crc16 ((frameBytes own cycle st ⟨dest, tag, b⟩).take (10 + b.bytes.length))).toNat := by
    rw [covered, frameBytes_eq, withCrc, fieldAt_last front (spellNum_length _ _), beNat_spellNum]
    exact Nat.mod_eq_of_lt (BitVec.isLt _)
  rw [classify_good count (by omega) length.ge crc]
  have body : ((frameBytes own cycle st ⟨dest, tag, b⟩).drop 10).take b.bytes.length = b.bytes := by
    rw [List.take_drop, covered, List.drop_left' (headerBytes_length _ _ _ _)]
  rw [body]
  simp [frameBytes_eq, withCrc, headerBytes, fieldAt_skip, fieldAt_here, ofNat_beNat_word, spellDigits_eq_spellNum]

theorem frameBytes_length (own cycle : Nat) (st : SenderState) (f : Frame) :
    (frameBytes own cycle st f).length = 12 + f.body.bytes.length := by
  simp [frameBytes_eq, withCrc, headerBytes_length]
  omega

/-! ### The line -/

theorem byteBits_get (b : Byte) {i : Nat} (h : i < 8) : (byteBits b)[i]? = some (b.getMsbD i) := by
  simp [byteBits, h]

theorem lineBits_get (before after : List Byte) (b : Byte) {i : Nat} (h : i < 8) :
    (lineBits (before ++ b :: after))[24 + 8 * before.length + i]? = some (b.getMsbD i) := by
  have mark : (preamble ++ byteBits startByte).length = 24 := by decide
  have bits : (before.flatMap byteBits).length = 8 * before.length := flatMap_byteBits_length before
  rw [lineBits_eq, List.getElem?_append_right (by omega), mark, List.flatMap_append,
    List.getElem?_append_right (by omega), bits, List.flatMap_cons, List.getElem?_append_left (by simp; omega)]
  have place : 24 + 8 * before.length + i - 24 - 8 * before.length = i := by omega
  rw [place, byteBits_get b h]

/-- Settles O56: what is sent is spelled field by field, and a receiver that reads it finds the fields again. -/
theorem framesReadBack : Obligations.FramesReadBack := by
  refine ⟨crc16_eq_bits, fun own cycle dest tag st b => ?_, fun x => ?_,
    fun bytes => ⟨lineBits_length bytes, ?_, ?_, fun _ => rfl, classifyBits_lineBits bytes⟩,
    fun own cycle dest tag st b ho ho' hc hc' hd ht hb => ?_⟩
  · intro amount body state
    have kind : b.kind = body.1.toNat := by cases b <;> rfl
    have state_eq : spellNum 1 st.code = [state] := by cases st <;> rfl
    have bytes : b.bytes = body.2 := by
      cases b with
      | tally k r l =>
        simp only [Body.bytes, amountBytes, bcdBytes_eq_spellDigits, signedBytes_eq_spellSigned, beBytes_eq_spellNum, body]
        cases hr : r.mark <;> cases hl : l.mark <;> simp [tallyMarks, hr, hl, spellNum]
      | _ =>
        simp only [Body.bytes, amountBytes, cycleBytes, bcdBytes_eq_spellDigits, signedBytes_eq_spellSigned,
          beBytes_eq_spellNum, refBytes_eq_spellRef, body, amount]
    refine ⟨kind, bytes, ?_⟩
    rw [frameBytes_eq, headerBytes, state_eq]
    simp only [kind, spellNum_one, bytes]
  · cases x <;> simp [StationState.sender]
  · rw [lineBits_eq, List.take_left' (by decide)]
    decide
  · rintro before b after i rfl hi
    exact lineBits_get before after b hi
  · intro bytes
    have length : bytes.length = 12 + b.bytes.length := frameBytes_length own cycle st ⟨dest, tag, b⟩
    have short := b.bytes_length_le
    have kind : (BitVec.ofNat 8 b.kind).toNat = b.kind := by cases b <;> rfl
    refine ⟨by omega, length, _, classify_frameBytes own cycle dest tag st b, kind, ?_, ?_⟩
    · have own_eq : (BitVec.ofNat 8 own).toNat = own := Nat.mod_eq_of_lt (by omega)
      have dest_eq : (BitVec.ofNat 8 dest).toNat = dest := Nat.mod_eq_of_lt (by omega)
      have tag_eq : (BitVec.ofNat 16 tag).toNat = tag := Nat.mod_eq_of_lt (by omega)
      have cycle_eq := (readCycle1_iff _ _).1 (readCycle1_word hc hc')
      refine (readHeader_iff _ _).2 ⟨?_, ?_, cycle_eq.1, cycle_eq.2, ?_, dest_eq.symm, own_eq.symm, tag_eq.symm⟩
      · rw [own_eq]
        exact ho
      · rw [own_eq]
        exact ho'
      · cases st
        · exact .inl ⟨rfl, rfl⟩
        · exact .inr ⟨rfl, rfl⟩
    · have parsed : parseBody b.kind b.bytes = some b.raw := by
        rw [← Body.raw_kind, ← Body.raw_bytes, parseBody_bytes]
      rw [kind, parsed]
      exact Body.raw_read hb

end Sys2Proof.Machine
end

section
/-! Closes (R141 to R144, R154): what a close makes of the part, and when one is made. -/

namespace Sys2Proof.Machine

/-! ### Latching (R172) -/

theorem liveBits_relatch (s : State) : liveBits (relatch s) = liveBits s := rfl

/-- What an operation that ends by setting the latches leaves latched. -/
theorem latched_relatch {s u : State} (hl : u.mu.latched = s.mu.latched) (hd : u.mu.detect = s.mu.detect)
    (he : u.mu.latch = s.mu.latch) :
    (relatch u).mu.latched = s.mu.latched ||| (s.mu.detect &&& s.mu.latch &&& liveBits (relatch u)) := by
  rw [liveBits_relatch, ← hl, ← hd, ← he]
  rfl

/-! ### A sweep over an empty table (R139) -/

theorem State.sweepOfNothing_cards {s : State} (h : s.ct.cards ≠ []) : s.sweepOfNothing = s := by
  rw [State.sweepOfNothing, if_neg (by rwa [List.isEmpty_iff])]

theorem State.sweepOfNothing_none {s : State} (h : s.ct.cards = []) :
    s.sweepOfNothing = { s with ct := { s.ct with cursor := none }, cc := { s.cc with phase := .sealing } } := by
  rw [State.sweepOfNothing, if_pos (List.isEmpty_iff.2 h)]
  rfl

theorem State.sweepOfNothing_pt (s : State) : s.sweepOfNothing.pt = s.pt :=
  s.sweepOfNothing_changes .peers (by decide)

theorem State.sweepOfNothing_saturation (s : State) : s.sweepOfNothing.mu.saturation = s.mu.saturation :=
  s.sweepOfNothing_changes .saturation (by decide)

theorem State.sweepOfNothing_mu (s : State) : s.sweepOfNothing.mu = s.mu := by
  unfold State.sweepOfNothing
  split <;> rfl

/-- The cycles after the sweep of an empty table differ in the phase alone. -/
theorem State.sweepOfNothing_cc (s : State) : ∃ p, s.sweepOfNothing.cc = { s.cc with phase := p } := by
  unfold State.sweepOfNothing
  split
  · exact ⟨.sealing, rfl⟩
  · exact ⟨s.cc.phase, rfl⟩

theorem State.sweepOfNothing_money (s : State) :
    s.sweepOfNothing.ct.float = s.ct.float ∧ s.sweepOfNothing.ct.life = s.ct.life ∧
      s.sweepOfNothing.ct.openOwn = s.ct.openOwn ∧ s.sweepOfNothing.ct.sealOwn = s.ct.sealOwn := by
  unfold State.sweepOfNothing
  split <;> exact ⟨rfl, rfl, rfl, rfl⟩

/-! ### The close (R144) -/

/-- The part once the open figures have become the sealing ones, before the exposures are formed (R144). -/
def State.closing (s : State) (st : Settings) (x : Nat) : State :=
  { s.modUsed st PeerEntry.close with ct := s.ct.close, cc := s.cc.close x (s.windowEnd st) }

theorem State.closeAt_eq (s : State) (st : Settings) (x : Nat) :
    s.closeAt st x = relatch ((s.closing st x).formExposures st).sweepOfNothing := rfl

/-- The sum of the parts of an entry's exposure behind a close, but for the held sum (R125). -/
def closedParts (st : Settings) (e : PeerEntry) : Int :=
  if e.peer = st.station then max e.openF.l.val 0 + (match e.sealF with | some f => max f.l.val 0 | none => 0)
  else max e.openF.l.val 0

theorem exposureSum_closed (st : Settings) (e : PeerEntry) (held : Nat) :
    exposureSum (if e.peer == st.station then e else e.close) held = closedParts st e + held := by
  by_cases h : e.peer = st.station
  · rw [if_pos (beq_iff_eq.2 h)]
    exact congrArg (· + (held : Int)) (if_pos h).symm
  · have opened : exposureSum e.close held = max 0 0 + max e.openF.l.val 0 + held := rfl
    rw [if_neg (by simpa using h), opened, closedParts, if_neg h]
    omega

theorem peer_closed (st : Settings) (e : PeerEntry) : (if e.peer == st.station then e else e.close).peer = e.peer := by
  split <;> rfl

theorem State.closing_pt (s : State) (st : Settings) (x : Nat) :
    (s.closing st x).pt = s.pt.map fun e => if e.peer == st.station then e else e.close := rfl

theorem State.closeAt_pt (s : State) (st : Settings) (x : Nat) :
    (s.closeAt st x).pt =
      s.pt.map fun e => (if e.peer = st.station then e else e.close).withExposure st (s.heldSum e.peer) := by
  have table : (s.closeAt st x).pt = ((s.closing st x).formExposures st).pt := by
    rw [State.closeAt_eq]
    exact State.sweepOfNothing_pt _
  rw [table, State.formExposures_pt, State.closing_pt, List.map_map]
  refine List.map_congr_left fun e _ => ?_
  have held : (s.closing st x).heldSum e.peer = s.heldSum e.peer := rfl
  rw [Function.comp_apply, peer_closed, held]
  simp only [beq_iff_eq]

theorem State.closeAt_saturation (s : State) (st : Settings) (x : Nat) :
    (s.closeAt st x).mu.saturation = true ↔
      s.mu.saturation = true ∨ ∃ e ∈ s.pt, overflows (closedParts st e + (s.heldSum e.peer : Int)) = true := by
  have same : (s.closeAt st x).mu.saturation = ((s.closing st x).formExposures st).mu.saturation := by
    rw [State.closeAt_eq]
    exact State.sweepOfNothing_saturation _
  have held (p : Nat) : (s.closing st x).heldSum p = s.heldSum p := rfl
  have before : (s.closing st x).mu.saturation = s.mu.saturation := rfl
  rw [same, State.formExposures_saturation, State.closing_pt, before]
  simp only [List.mem_map, exists_exists_and_eq_and, peer_closed, exposureSum_closed, held]

theorem State.closeAt_cc (s : State) (st : Settings) (x : Nat) :
    ∃ p, (s.closeAt st x).cc = { s.cc.close x (s.windowEnd st) with phase := p } :=
  ((s.closing st x).formExposures st).sweepOfNothing_cc

theorem State.closeAt_latched (s : State) (st : Settings) (x : Nat) :
    (s.closeAt st x).mu.latched =
      s.mu.latched ||| (s.mu.detect &&& s.mu.latch &&& liveBits (s.closeAt st x)) := by
  have same := ((s.closing st x).formExposures st).sweepOfNothing_mu
  have latched := congrArg Monitor.latched same
  have detect := congrArg Monitor.detect same
  have latch := congrArg Monitor.latch same
  exact latched_relatch latched detect latch

/-- The rate of the last due entry becomes active (R154). -/
theorem Cycles.close_active {cc : Cycles} {x : Nat} {w : Moment} {due later : List Staged} {last : Staged}
    (hs : cc.schedule = due ++ last :: later) (hl : last.effective ≤ x) (ha : ∀ e ∈ later, x < e.effective) :
    (cc.close x w).active = some last.rate := by
  have noneDue : later.filter (fun e => decide (e.effective ≤ x)) = [] :=
    List.filter_eq_nil_iff.2 fun e he => by simpa using ha e he
  simp [Cycles.close, Cycles.applySchedule, hs, hl, noneDue]

theorem Cycles.close_active_kept {cc : Cycles} {x : Nat} {w : Moment} (ha : ∀ e ∈ cc.schedule, x < e.effective) :
    (cc.close x w).active = cc.active := by
  have noneDue : cc.schedule.filter (fun e => decide (e.effective ≤ x)) = [] :=
    List.filter_eq_nil_iff.2 fun e he => by simpa using ha e he
  simp [Cycles.close, Cycles.applySchedule, noneDue]

/-! ### CLOSE_DAY by phase (R142) -/

section CloseDay

variable {s : State} (st : Settings)

theorem State.closeDay_limit (h : 999999 ≤ s.cc.openCycle) : s.closeDay st = (s, .plain .cycleLimit) := by
  rw [State.closeDay, if_pos (show Config.countMax ≤ s.cc.openCycle from h)]

theorem State.closeDay_below (h : s.cc.openCycle < 999999) :
    s.closeDay st =
      match s.cc.phase with
      | .steady => (s.closeAt st (s.cc.openCycle + 1), closedReply s.cc.openCycle false)
      | .sweeping =>
        (s.keepTarget (s.cc.openCycle + 1), ⟨.closePending, [.cycle (s.keepTarget (s.cc.openCycle + 1)).cc.pendingTarget]⟩)
      | .sealing =>
        match s.su.grantSlot with
        | some _ =>
          ((s.keepTarget (s.cc.openCycle + 1)).makeSeal st s.cc.sealTimer.isSome,
            closedReply s.cc.openCycle s.cc.sealTimer.isSome)
        | none => (s.makeSeal st s.cc.sealTimer.isSome, .plain .slotsFull)
      | .deferred => (s, .plain .slotsFull) := by
  have below : ¬ Config.countMax ≤ s.cc.openCycle := Nat.not_le.2 h
  refine (if_neg below).trans ?_
  cases s.cc.phase <;> rfl

end CloseDay

/-- Settles O46: when a close is made, and the parts of a close. -/
theorem closesAreMade : Obligations.ClosesAreMade := by
  refine ⟨⟨fun s st t token h => ?_, fun s st x => ?_, fun s st t hd g kind body hp hs hr hf h0 ho hc => ?_,
    fun s st t hp hs => ⟨fun x hph ht => ?_, fun hn => ?_⟩⟩, fun s st x => ?_⟩
  · obtain ⟨hp, -, hi⟩ := id h
    intro o u said target kept closed
    have reply {v : State} {status : Status} {vs : List Value} (hr : (begun s t).closeDay st = (v, ⟨status, vs⟩)) :
        said v status vs := write_says hp hi ((enrolled_begun h t _).trans hr)
    refine ⟨fun hl => reply (State.closeDay_limit st hl), fun hl => ?_⟩
    have below := State.closeDay_below (s := begun s t) st hl
    refine ⟨fun hph => reply ?_, fun hph => reply ?_, fun hph => ⟨fun hg => reply ?_, fun hg => reply ?_⟩,
      fun hph => reply ?_⟩
    · rw [below, show (begun s t).cc.phase = .steady from hph]
      rfl
    · rw [below, show (begun s t).cc.phase = .sweeping from hph]
      rfl
    · obtain ⟨no, hg⟩ := Option.ne_none_iff_exists'.1 hg
      rw [below, show (begun s t).cc.phase = .sealing from hph]
      simp only [show (begun s t).su.grantSlot = some no from hg]
      rfl
    · rw [below, show (begun s t).cc.phase = .sealing from hph]
      simp only [show (begun s t).su.grantSlot = none from hg]
      rfl
    · rw [below, show (begun s t).cc.phase = .deferred from hph]
      rfl
  · intro target kept
    refine ⟨fun hph => ?_, fun hph => ?_, fun hph => ?_⟩
    · rw [State.catchUp, hph]
    · rcases hph with hph | hph <;> rw [State.catchUp, hph] <;> rfl
    · rw [State.catchUp, hph]
      rfl
  · have cycle : ((s.atMoment t).hearPeer g).cc = s.cc := (s.atMoment t).hearPeer_changes g .cycles (by decide)
    refine (hearGood_header hp hs hr hf t _ (.inr ⟨h0, ho⟩)).trans ?_
    rw [heardFrom, State.catchUpCheck, if_pos (by rwa [cycle])]
  · refine (event_powered hp t fun s => whenEnrolled s s.pendingClose).trans ?_
    rw [whenEnrolled_some (s := s.atMoment t) hs, State.pendingClose, show (s.atMoment t).cc.phase = .steady from hph,
      show (s.atMoment t).cc.pendingTarget = some x from ht]
  · refine (event_powered hp t fun s => whenEnrolled s s.pendingClose).trans ?_
    rw [whenEnrolled_some (s := s.atMoment t) hs, State.pendingClose]
    split
    · rename_i hph ht
      rcases hn with hn | hn
      · exact absurd hph hn
      · exact absurd (hn.symm.trans ht) (by simp)
    · rfl
  · intro u
    obtain ⟨p, cycles⟩ := s.closeAt_cc st x
    obtain ⟨float, life, openOwn, sealOwn⟩ := ((s.closing st x).formExposures st).sweepOfNothing_money
    refine ⟨s.closeAt_changes st x, s.closeAt_pt st x, ⟨openOwn, sealOwn, float, life⟩, ?_, s.closeAt_saturation st x,
      s.closeAt_latched st x, fun hn => ?_, fun hn => ?_, ?_,
      fun due later last hs hl ha => ?_, fun ha => ?_⟩
    · rw [show u.cc = _ from cycles]
      exact ⟨rfl, rfl, rfl, rfl⟩
    · have sweep := State.sweepOfNothing_cards (s := (s.closing st x).formExposures st) hn
      exact ⟨congrArg (·.cc.phase) sweep, congrArg (·.ct.cursor) sweep⟩
    · have sweep := State.sweepOfNothing_none (s := (s.closing st x).formExposures st) hn
      exact ⟨congrArg (·.cc.phase) sweep, congrArg (·.ct.cursor) sweep⟩
    · rw [show u.cc = _ from cycles]
      rfl
    · rw [show u.cc = _ from cycles]
      exact Cycles.close_active hs hl ha
    · rw [show u.cc = _ from cycles]
      exact Cycles.close_active_kept ha

end Sys2Proof.Machine
end

section
/-! The completion of a seal (R148, R149, R151, R152): what it leaves of each part. -/

namespace Sys2Proof.Machine

/-! ### What asking for frames leaves alone -/

/-- A state that differs from another in the frames asked for alone is that state again, once the line, the exchanges and
the draws are put back. -/
theorem eq_of_fill_changes {s t : State} (h : ChangesOnly fillParts s t) :
    ({ t with lc := s.lc, xt := s.xt, draws := s.draws } : State) = s := by
  have tp : t.tp = s.tp := by
    have port := h .port (by decide)
    have results := h .results (by decide)
    have settings := h .settings (by decide)
    simp only [Part.same, Prod.mk.injEq] at port results settings
    obtain ⟨state, response, busy⟩ := port
    cases ht : t.tp
    cases hs : s.tp
    simp_all
  have pins : t.pins = s.pins := by
    have attn := h .attn (by decide)
    have lde := h .lde (by decide)
    have ltx := h .ltx (by decide)
    have miso := h .miso (by decide)
    simp only [Part.same] at attn lde ltx miso
    cases ht : t.pins
    cases hs : s.pins
    simp_all
  have ct : t.ct = s.ct := by
    have cards := h .cards (by decide)
    have serials := h .serials (by decide)
    have money := h .money (by decide)
    have cursor := h .cursor (by decide)
    simp only [Part.same, Prod.mk.injEq] at cards serials money cursor
    obtain ⟨float, life, openOwn, sealOwn⟩ := money
    cases ht : t.ct
    cases hs : s.ct
    simp_all
  have mu : t.mu = s.mu := by
    have enables := h .enables (by decide)
    have latched := h .latched (by decide)
    have saturation := h .saturation (by decide)
    simp only [Part.same, Prod.mk.injEq] at enables latched saturation
    obtain ⟨detect, latch, stopOnError⟩ := enables
    cases ht : t.mu
    cases hs : s.mu
    simp_all
  have now : t.now = s.now := h .now (by decide)
  have seq : t.seq = s.seq := h .place (by decide)
  have pending : t.pending = s.pending := h .queue (by decide)
  have power : t.power = s.power := h .power (by decide)
  have retention : t.retention = s.retention := h .retention (by decide)
  have holds : t.ht = s.ht := h .holds (by decide)
  have trail : t.tr = s.tr := h .trail (by decide)
  have peers : t.pt = s.pt := h .peers (by decide)
  have cycles : t.cc = s.cc := h .cycles (by decide)
  have statements : t.su = s.su := h .statements (by decide)
  rw [tp, pins, ct, mu, now, seq, pending, power, retention, holds, trail, peers, cycles, statements]

theorem live_of_fill {s t : State} (h : ChangesOnly fillParts s t) (x : Source) : live t x = live s x := by
  have bad : t.lc.badFrames = s.lc.badFrames := h .badFrames (by decide)
  have failed : t.lc.sendFailed = s.lc.sendFailed := h .sendFailed (by decide)
  have dropped : t.lc.answerDropped = s.lc.answerDropped := h .answerDropped (by decide)
  have clash : t.lc.clash = s.lc.clash := h .clash (by decide)
  have back := congrArg (live · x) (eq_of_fill_changes h)
  cases x with
  | clash => exact clash
  | linkNoise => simp only [live, bad]
  | sendFailed => simp only [live, failed]
  | answerDropped => simp only [live, dropped]
  | _ => exact back

theorem liveBits_of_fill {s t : State} (h : ChangesOnly fillParts s t) : liveBits t = liveBits s := by
  refine BitVec.eq_of_getLsbD_eq fun k _ => ?_
  rw [liveBits_getLsbD, liveBits_getLsbD, show live t = live s from funext (live_of_fill h)]

/-! ### The seal before the TALLYs are asked for (R148 steps 1 to 7) -/

/-- The part once the statement is placed, the entries are sealed and the sealing set is gone. -/
def State.sealedSet (s : State) (st : Settings) (x : SealingSet) (no : SlotNo) : State :=
  let s1 := s.placeStatement no (s.sealSource st x)
  let s2 := (s1.modUsed st fun e => e.sealAt x.cycle).raiseSat ((s1.usedPeers st).any PeerEntry.sealSat)
  { s2 with ct := { s2.ct with sealOwn := none }, cc := s2.cc.sealed }

/-- The part once the pending tallies are tested again, before the TALLYs owed are asked for. -/
def State.sealRetested (s : State) (st : Settings) (x : SealingSet) (no : SlotNo) : State :=
  relatch (((s.sealedSet st x no).formExposures st).retestTallies st)

theorem State.completeSeal_fill (s : State) (st : Settings) (x : SealingSet) (no : SlotNo) :
    ChangesOnly fillParts (s.sealRetested st x no) (s.completeSeal st x no) := State.askTallies_changes _ st

theorem State.sealedSet_changes (s : State) (st : Settings) (x : SealingSet) (no : SlotNo) :
    ChangesOnly [.statements, .peers, .saturation, .money, .cycles] s (s.sealedSet st x no) := by
  refine ChangesOnly.trans (t := ((s.placeStatement no (s.sealSource st x)).modUsed st fun e => e.sealAt x.cycle).raiseSat
    (((s.placeStatement no (s.sealSource st x)).usedPeers st).any PeerEntry.sealSat)) ?_ ?_
  · exact ((s.placeStatement_changes _ _).comp (State.modUsed_changes _ _ _)
      (rs := [.statements, .peers, .saturation, .money, .cycles]) (by decide) (by decide)).comp
        (State.raiseSat_changes _ _) (by decide) (by decide)
  · intro p hp
    cases p with
    | statements | peers | saturation | money | cycles => exact absurd (by decide) hp
    | _ => rfl

theorem State.sealRetested_changes (s : State) (st : Settings) (x : SealingSet) (no : SlotNo) :
    ChangesOnly [.statements, .peers, .saturation, .money, .cycles, .latched] s (s.sealRetested st x no) :=
  (((s.sealedSet_changes st x no).mono (by decide)).trans
    ((State.formExposures_changes _ st).mono (by decide))).trans
      (((State.retestTallies_changes _ st).mono (by decide)).trans ((relatch_changes _).mono (by decide)))

/-- The line, the exchanges and the draws of a state. -/
def State.asking (s : State) : Link × ExchangeTable × Nat := (s.lc, s.xt, s.draws)

theorem State.sealedSet_asking (s : State) (st : Settings) (x : SealingSet) (no : SlotNo) :
    (s.sealedSet st x no).asking = s.asking := rfl

theorem relatch_asking (s : State) : (relatch s).asking = s.asking := rfl

theorem State.formExposures_asking (s : State) (st : Settings) : (s.formExposures st).asking = s.asking := rfl

theorem State.retestTallies_asking (s : State) (st : Settings) : (s.retestTallies st).asking = s.asking := rfl

theorem State.sealRetested_asking (s : State) (st : Settings) (x : SealingSet) (no : SlotNo) :
    (s.sealRetested st x no).asking = s.asking := by
  rw [State.sealRetested, relatch_asking, State.retestTallies_asking, State.formExposures_asking, State.sealedSet_asking]

theorem Total.owes_eq (t : Total) : t.owes = decide (t ≠ .zero) := by
  obtain ⟨val, mark⟩ := t
  rw [Bool.eq_iff_iff]
  cases mark <;> simp [Total.owes, Total.zero]

/-- An entry at the completion of a seal, of a used peer or of the own number. -/
def PeerEntry.sealedFor (e : PeerEntry) (st : Settings) (c : Nat) : PeerEntry :=
  if e.peer == st.station then e else e.sealAt c

theorem PeerEntry.sealedFor_own {e : PeerEntry} {st : Settings} (h : e.peer = st.station) (c : Nat) :
    e.sealedFor st c = e := if_pos (beq_iff_eq.2 h)

theorem PeerEntry.sealedFor_used {e : PeerEntry} {st : Settings} (h : e.peer ≠ st.station) (c : Nat) :
    e.sealedFor st c = e.sealAt c := if_neg (by simpa using h)

theorem PeerEntry.sealedFor_peer (e : PeerEntry) (st : Settings) (c : Nat) : (e.sealedFor st c).peer = e.peer := by
  unfold PeerEntry.sealedFor
  split <;> rfl

theorem State.sealedSet_pt (s : State) (st : Settings) (x : SealingSet) (no : SlotNo) :
    (s.sealedSet st x no).pt = s.pt.map fun e => e.sealedFor st x.cycle := rfl

theorem State.sealRetested_pt (s : State) (st : Settings) (x : SealingSet) (no : SlotNo) :
    (s.sealRetested st x no).pt = s.pt.map fun e =>
      if e.peer = st.station then e.withExposure st (s.heldSum e.peer)
      else ((e.sealAt x.cycle).withExposure st (s.heldSum e.peer)).retestTally s.cc.sealed := by
  have chain : (s.sealRetested st x no).pt =
      (((s.pt.map fun e => e.sealedFor st x.cycle).map fun e => e.withExposure st (s.heldSum e.peer)).map fun e =>
        if e.peer == st.station then e else e.retestTally s.cc.sealed) := rfl
  rw [chain, List.map_map, List.map_map]
  refine List.map_congr_left fun e _ => ?_
  simp only [Function.comp_apply]
  by_cases h : e.peer = st.station
  · rw [if_pos h, PeerEntry.sealedFor_own h]
    exact if_pos (beq_iff_eq.2 h)
  · rw [if_neg h, PeerEntry.sealedFor_used h]
    exact if_neg (show ¬ (e.peer == st.station) = true by simpa using h)

/-- Forming an exposure changes nothing that the comparison of a tally reads. -/
theorem PeerEntry.withExposure_retestTallySat (e : PeerEntry) (st : Settings) (held : Nat) (cc : Cycles) :
    (e.withExposure st held).retestTallySat cc = e.retestTallySat cc := rfl

theorem PeerEntry.retestTallySat_iff (e : PeerEntry) (cc : Cycles) :
    e.retestTallySat cc = true ↔ ∃ y, e.pendingTally = some y ∧ e.takeTallySat cc y = true := by
  unfold PeerEntry.retestTallySat
  cases e.pendingTally <;> simp

theorem State.sealedSet_saturation (s : State) (st : Settings) (x : SealingSet) (no : SlotNo) :
    (s.sealedSet st x no).mu.saturation = true ↔
      s.mu.saturation = true ∨ (s.sealSource st x).saturates = true ∨
        ∃ e ∈ s.pt, e.peer ≠ st.station ∧ e.sealSat = true := by
  have sum : (s.sealedSet st x no).mu.saturation =
      ((s.mu.saturation || (s.sealSource st x).saturates) || (s.usedPeers st).any PeerEntry.sealSat) := rfl
  rw [sum]
  simp [State.usedPeers, or_assoc]

/-- What saturates in the completion of a seal (R6, R148, R149): the statement, and each entry's steps. -/
theorem State.sealRetested_saturation (s : State) (st : Settings) (x : SealingSet) (no : SlotNo) :
    (s.sealRetested st x no).mu.saturation = true ↔
      s.mu.saturation = true ∨ (s.sealSource st x).saturates = true ∨
        ∃ e ∈ s.pt, (e.peer = st.station ∧ overflows (exposureSum e (s.heldSum e.peer)) = true) ∨
          (e.peer ≠ st.station ∧
            (e.sealSat = true ∨ overflows (exposureSum (e.sealAt x.cycle) (s.heldSum e.peer)) = true ∨
              (e.sealAt x.cycle).retestTallySat s.cc.sealed = true)) := by
  have sum : (s.sealRetested st x no).mu.saturation =
      (((s.sealedSet st x no).formExposures st).mu.saturation ||
        (((s.sealedSet st x no).formExposures st).usedPeers st).any fun e => e.retestTallySat s.cc.sealed) := rfl
  have held (p : Nat) : (s.sealedSet st x no).heldSum p = s.heldSum p := rfl
  have used : (((s.sealedSet st x no).formExposures st).usedPeers st).any (fun e => e.retestTallySat s.cc.sealed) = true ↔
      ∃ e ∈ s.pt, e.peer ≠ st.station ∧ (e.sealAt x.cycle).retestTallySat s.cc.sealed = true := by
    rw [State.usedPeers, State.formExposures_pt, State.sealedSet_pt]
    simp only [List.any_filter, List.any_map, List.any_eq_true, Function.comp_apply, Bool.and_eq_true, bne_iff_ne,
      PeerEntry.withExposure_retestTallySat]
    refine exists_congr fun e => and_congr_right fun _ => ?_
    have number : ((e.sealedFor st x.cycle).withExposure st
        ((s.sealedSet st x no).heldSum (e.sealedFor st x.cycle).peer)).peer = e.peer := e.sealedFor_peer st x.cycle
    rw [number]
    exact and_congr_right fun h => by rw [PeerEntry.sealedFor_used h]
  have exposures : (∃ e ∈ (s.sealedSet st x no).pt,
        overflows (exposureSum e ((s.sealedSet st x no).heldSum e.peer)) = true) ↔
      ∃ e ∈ s.pt, (e.peer = st.station ∧ overflows (exposureSum e (s.heldSum e.peer)) = true) ∨
        (e.peer ≠ st.station ∧ overflows (exposureSum (e.sealAt x.cycle) (s.heldSum e.peer)) = true) := by
    rw [State.sealedSet_pt]
    simp only [List.mem_map, exists_exists_and_eq_and, PeerEntry.sealedFor_peer, held]
    refine exists_congr fun e => and_congr_right fun _ => ?_
    by_cases h : e.peer = st.station
    · simp [h, PeerEntry.sealedFor_own h]
    · simp [h, PeerEntry.sealedFor_used h]
  rw [sum, Bool.or_eq_true, used, State.formExposures_saturation, exposures, State.sealedSet_saturation]
  grind

/-! ### Testing a tally again (R151, R152) -/

theorem tallySort_stale {cc : Cycles} {sLast c : Nat} (h : c < sLast) : tallySort cc sLast c = .stale := if_pos h

theorem tallySort_comparable {cc : Cycles} {sLast c : Nat} (h : sLast ≤ c) (ho : c < cc.openCycle)
    (hs : ∀ x, cc.sealing = some x → c < x.cycle) : tallySort cc sLast c = .comparable := by
  rw [tallySort, if_neg (Nat.not_lt.2 h), if_pos]
  cases hx : cc.sealing with
  | none => simp [ho]
  | some x => simp [ho, hs x hx]

theorem tallySort_later {cc : Cycles} {sLast c : Nat} (h : sLast ≤ c) (ho : cc.openCycle ≤ c) :
    tallySort cc sLast c = .later := by
  rw [tallySort, if_neg (Nat.not_lt.2 h), if_neg]
  simp [Nat.not_lt.2 ho]

theorem PeerEntry.retestTally_none {e : PeerEntry} (h : e.pendingTally = none) (cc : Cycles) : e.retestTally cc = e := by
  rw [PeerEntry.retestTally, h]

/-- Settles O49: the seal part by part, the TALLYs asked for, and how a pending tally is tested again. -/
theorem sealCompletionSettles : Obligations.SealCompletionSettles := by
  refine ⟨fun s st x no => ?_, fun _ _ => rfl, fun cc e => ⟨fun h => PeerEntry.retestTally_none h cc, fun y hy => ?_⟩⟩
  · intro u sealed
    have fill := s.completeSeal_fill st x no
    have sealed_eq (e : PeerEntry) : e.sealAt x.cycle = sealed e := by
      simp only [PeerEntry.sealAt, Total.owes_eq, sealed]
    have money := fill .money (by decide)
    have cycles : u.cc = s.cc.sealed := fill .cycles (by decide)
    have table : u.pt = (s.sealRetested st x no).pt := fill .peers (by decide)
    have saturation : u.mu.saturation = (s.sealRetested st x no).mu.saturation := fill .saturation (by decide)
    have latched : u.mu.latched = (s.sealRetested st x no).mu.latched := fill .latched (by decide)
    simp only [Part.same, Prod.mk.injEq] at money
    obtain ⟨float, life, openOwn, sealOwn⟩ := money
    refine ⟨((s.sealRetested_changes st x no).mono (by decide)).trans (fill.mono (by decide)),
      fill .statements (by decide), ⟨sealOwn, openOwn, float, life⟩, cycles, ?_, ?_, ?_, ?_⟩
    · rw [table, State.sealRetested_pt, cycles]
      simp only [sealed_eq]
    · intro exposed
      have exposed_eq (e : PeerEntry) : exposureSum e (s.heldSum e.peer) = exposed e := by
        cases h : e.sealF <;> simp [exposureSum, exposed, h]
      rw [saturation, State.sealRetested_saturation, cycles]
      simp only [exposed_eq, PeerEntry.retestTallySat_iff, sealed_eq, PeerEntry.sealSat, Total.diffSat,
        Bool.or_eq_true, or_assoc]
      rfl
    · rw [latched, liveBits_of_fill fill]
      exact latched_relatch rfl rfl rfl
    · have back := eq_of_fill_changes fill
      have asking := s.sealRetested_asking st x no
      simp only [State.asking, Prod.mk.injEq] at asking
      obtain ⟨lc, xt, draws⟩ := asking
      rw [lc, xt, draws] at back
      rw [back]
      rfl
  · refine ⟨fun h => ?_, fun h ho hs => ?_, fun h ho => ?_⟩
    · simp only [PeerEntry.retestTally, hy, tallySort_stale h]
    · simp only [PeerEntry.retestTally, PeerEntry.takeTally, hy, tallySort_comparable h ho hs]
    · simp only [PeerEntry.retestTally, hy, tallySort_later h ho]

end Sys2Proof.Machine
end

section
/-! The result queue (R117, R182): what one filling can do, and what all of them leave. -/

namespace Sys2Proof.Machine

/-! ### One filling -/

/-- A filling enters the oldest result of an exchange, or the held link result. -/
theorem State.fillResult_cases {s t : State} (h : s.fillResult = some t) :
    s.tp.results.length < 32 ∧
      ((∃ e x, oldestWaiting s.xt.exchanges = some e ∧ e.result = some x ∧ t = s.enterExchange e x) ∨
        ∃ w, s.lc.heldLink = some w ∧ t = s.enterLink w) := by
  have room : Config.exchangesMax = 32 := rfl
  unfold State.fillResult at h
  rw [room] at h
  split at h
  · cases h
  · refine ⟨by omega, ?_⟩
    cases hw : oldestWaiting s.xt.exchanges with
    | none =>
      cases hl : s.lc.heldLink with
      | none => simp [hw, hl] at h
      | some w =>
        simp only [hw, hl, Option.some.injEq] at h
        exact .inr ⟨w, rfl, h.symm⟩
    | some e =>
      cases hx : e.result with
      | none => cases hl : s.lc.heldLink <;> simp [hw, hl, hx] at h
      | some x =>
        cases hl : s.lc.heldLink with
        | none =>
          simp only [hw, hl, hx, Option.some.injEq] at h
          exact .inl ⟨e, x, rfl, hx, h.symm⟩
        | some w =>
          simp only [hw, hl, hx, Option.some.injEq] at h
          split at h
          · exact .inl ⟨e, x, rfl, hx, h.symm⟩
          · exact .inr ⟨w, rfl, h.symm⟩

theorem State.fillResult_full {s : State} (h : 32 ≤ s.tp.results.length) : s.fillResult = none :=
  Option.eq_none_iff_forall_ne_some.2 fun _ ht => absurd (State.fillResult_cases ht).1 (Nat.not_lt.2 h)

theorem State.fillResult_idle {s : State} (h : oldestWaiting s.xt.exchanges = none) (hl : s.lc.heldLink = none) :
    s.fillResult = none := by
  refine Option.eq_none_iff_forall_ne_some.2 fun t ht => ?_
  rcases (State.fillResult_cases ht).2 with ⟨e, x, he, -, -⟩ | ⟨w, hw, -⟩
  · rw [h] at he
    cases he
  · rw [hl] at hw
    cases hw

/-- With room and no link result held, the oldest result of an exchange enters. -/
theorem State.fillResult_exchange {s : State} {e : Exchange} {x : Waiting} (hr : s.tp.results.length < 32)
    (he : oldestWaiting s.xt.exchanges = some e) (hx : e.result = some x) (hl : s.lc.heldLink = none) :
    s.fillResult = some (s.enterExchange e x) := by
  have room : ¬ Config.exchangesMax ≤ s.tp.results.length := Nat.not_le.2 hr
  rw [State.fillResult, if_neg room]
  simp only [he, hl, hx]

/-! ### What every filling keeps -/

/-- What holds of a state and is kept by each filling holds when the queue has been filled. -/
theorem State.fillResultTimes_ind {P : State → Prop} (step : ∀ s t, P s → s.fillResult = some t → P t) (n : Nat) :
    ∀ s, P s → P (State.fillResultTimes n s) := by
  induction n with
  | zero => exact fun s hs => hs
  | succ n ih =>
    intro s hs
    unfold State.fillResultTimes
    split
    · rename_i t ht
      exact ih t (step s t hs ht)
    · exact hs

theorem State.fillResults_ind {P : State → Prop} (step : ∀ s t, P s → s.fillResult = some t → P t) {s : State}
    (h : P s) : P s.fillResults := State.fillResultTimes_ind step _ s h

/-- An exchange of the table is one of another, or one whose result has entered. -/
def State.DeliveredFrom (s : State) (es : List Exchange) : Prop :=
  ∀ x ∈ s.xt.exchanges, ∃ y ∈ es, x = y ∨ x = { y with result := none }

theorem State.resultDelivered_from (s : State) (e : Exchange) : (s.resultDelivered e).DeliveredFrom s.xt.exchanges := by
  intro x hx
  unfold State.resultDelivered at hx
  dsimp only at hx
  split at hx
  · exact ⟨x, (List.mem_filter.1 hx).1, .inl rfl⟩
  · obtain ⟨y, hy, rfl⟩ := List.mem_map.1 hx
    refine ⟨y, hy, ?_⟩
    split
    · exact .inr rfl
    · exact .inl rfl

theorem State.DeliveredFrom.trans {s t : State} {es : List Exchange} (h : s.DeliveredFrom es)
    (g : t.DeliveredFrom s.xt.exchanges) : t.DeliveredFrom es := by
  intro x hx
  obtain ⟨y, hy, hxy⟩ := g x hx
  obtain ⟨z, hz, hyz⟩ := h y hy
  refine ⟨z, hz, ?_⟩
  rcases hyz with rfl | rfl
  · exact hxy
  · rcases hxy with rfl | rfl <;> exact .inr rfl

theorem State.fillResults_from (s : State) : s.fillResults.DeliveredFrom s.xt.exchanges := by
  refine State.fillResults_ind (P := fun t => t.DeliveredFrom s.xt.exchanges) (fun t u ht hu => ?_)
    fun x hx => ⟨x, hx, .inl rfl⟩
  rcases (State.fillResult_cases hu).2 with ⟨e, x, -, -, rfl⟩ | ⟨w, -, rfl⟩
  · exact ht.trans ((t.enterResult x.result).resultDelivered_from e)
  · exact ht

/-- The results that stand stay, and others enter behind them (R182). -/
theorem State.fillResults_results (s : State) : ∃ entered, s.fillResults.tp.results = s.tp.results ++ entered := by
  refine State.fillResults_ind (P := fun t => ∃ entered, t.tp.results = s.tp.results ++ entered) (fun t u ht hu => ?_)
    ⟨[], (List.append_nil _).symm⟩
  obtain ⟨entered, ht⟩ := ht
  rcases (State.fillResult_cases hu).2 with ⟨e, x, -, -, rfl⟩ | ⟨w, -, rfl⟩
  · exact ⟨entered ++ [x.result], by rw [← List.append_assoc, ← ht]; rfl⟩
  · exact ⟨entered ++ [w.result], by rw [← List.append_assoc, ← ht]; rfl⟩

/-- Without a held link result the Link Controller takes no part. -/
theorem State.fillResults_lc {s : State} (h : s.lc.heldLink = none) : s.fillResults.lc = s.lc := by
  refine State.fillResults_ind (P := fun t => t.lc = s.lc) (fun t u ht hu => ?_) rfl
  rcases (State.fillResult_cases hu).2 with ⟨e, x, -, -, rfl⟩ | ⟨w, hw, -⟩
  · exact ht
  · rw [ht, h] at hw
    cases hw

/-! ### What a filling reads -/

/-- What the filling of the result queue reads and changes. -/
def State.resultView (s : State) : ExchangeTable × List ResultRec × Option Waiting :=
  (s.xt, s.tp.results, s.lc.heldLink)

theorem State.enterExchange_view {s t : State} (h : s.resultView = t.resultView) (e : Exchange) (x : Waiting) :
    (s.enterExchange e x).resultView = (t.enterExchange e x).resultView := by
  simp only [State.resultView, Prod.mk.injEq] at h
  obtain ⟨hx, hr, hl⟩ := h
  simp only [State.resultView, State.enterExchange, State.resultDelivered, State.enterResult, hx, hr, hl]

theorem State.enterLink_view {s t : State} (h : s.resultView = t.resultView) (w : Waiting) :
    (s.enterLink w).resultView = (t.enterLink w).resultView := by
  simp only [State.resultView, Prod.mk.injEq] at h
  obtain ⟨hx, hr, hl⟩ := h
  simp only [State.resultView, State.enterLink, State.enterResult, hx, hr]

theorem State.fillResult_view {s t : State} (h : s.resultView = t.resultView) :
    s.fillResult.map State.resultView = t.fillResult.map State.resultView := by
  have exchange (e : Exchange) (x : Waiting) := State.enterExchange_view h e x
  have link (w : Waiting) := State.enterLink_view h w
  simp only [State.resultView, Prod.mk.injEq] at h
  obtain ⟨hx, hr, hl⟩ := h
  unfold State.fillResult
  rw [hx, hr, hl]
  split
  · rfl
  · cases oldestWaiting t.xt.exchanges with
    | none =>
      cases t.lc.heldLink with
      | none => rfl
      | some w => exact congrArg some (link w)
    | some e =>
      cases t.lc.heldLink with
      | none =>
        cases he : e.result with
        | none => simp only [he]
        | some x =>
          simp only [he, Option.map_some, exchange]
      | some w =>
        cases he : e.result with
        | none => simp only [he]
        | some x =>
          simp only [he, Option.map_some]
          split
          · rw [exchange]
          · rw [link]

theorem State.fillResultTimes_view (n : Nat) :
    ∀ {s t : State}, s.resultView = t.resultView →
      (State.fillResultTimes n s).resultView = (State.fillResultTimes n t).resultView := by
  induction n with
  | zero => exact fun h => h
  | succ n ih =>
    intro s t h
    have step := State.fillResult_view h
    unfold State.fillResultTimes
    cases hs : s.fillResult with
    | none =>
      cases ht : t.fillResult with
      | none => exact h
      | some t' => simp [hs, ht] at step
    | some s' =>
      cases ht : t.fillResult with
      | none => simp [hs, ht] at step
      | some t' => exact ih (by simpa [hs, ht] using step)

theorem State.fillResults_view {s t : State} (h : s.resultView = t.resultView) :
    s.fillResults.resultView = t.fillResults.resultView := State.fillResultTimes_view _ h

end Sys2Proof.Machine
end

section
/-! Starts and supplies (R186 to R190): the warm start part by part. -/

namespace Sys2Proof.Machine

/-! ### Setting exchanges aside, whatever their tags (R118) -/

/-- The exchange is neither QUEUED nor WAITING. -/
theorem Exchange.not_underWay_iff (e : Exchange) : e.underWay = false ↔ e.state ≠ .queued ∧ e.state ≠ .waiting := by
  simp [Exchange.underWay]

theorem State.modExchange_mem {s : State} {tag : Nat} {f : Exchange → Exchange} {x : Exchange}
    (h : x ∈ (s.modExchange tag f).xt.exchanges) :
    (x ∈ s.xt.exchanges ∧ x.tag ≠ tag) ∨ ∃ y ∈ s.xt.exchanges, y.tag = tag ∧ x = f y := by
  obtain ⟨y, hy, rfl⟩ := List.mem_map.1 h
  split
  · rename_i ht
    exact .inr ⟨y, hy, by simpa using ht, rfl⟩
  · rename_i ht
    exact .inl ⟨hy, by simpa using ht⟩

theorem State.finishExchange_mem {s : State} {e x : Exchange} {resolved : Bool} {o : ExOutcome}
    (h : x ∈ (s.finishExchange e resolved o).xt.exchanges) :
    (x ∈ s.xt.exchanges ∧ x.tag ≠ e.tag) ∨ x.underWay = false := by
  unfold State.finishExchange at h
  split at h
  · obtain ⟨hx, ht⟩ := List.mem_filter.1 h
    exact .inl ⟨hx, by simpa using ht⟩
  · rcases State.modExchange_mem h with h | ⟨y, -, -, rfl⟩
    · exact .inl h
    · exact .inr rfl

/-- Setting an exchange aside leaves none of its tag under way. -/
theorem State.setAside_mem {s : State} {e x : Exchange} (h : x ∈ (s.setAside e).xt.exchanges) :
    (x ∈ s.xt.exchanges ∧ x.tag ≠ e.tag) ∨ x.underWay = false := by
  unfold State.setAside at h
  split at h
  · rcases State.modExchange_mem h with h | ⟨y, -, -, rfl⟩
    · exact .inl h
    · exact .inr rfl
  · rcases State.modExchange_mem h with h | ⟨y, -, -, rfl⟩
    · exact .inl h
    · exact .inr rfl
  · exact State.finishExchange_mem h

theorem State.setAside_foldl_settled (l : List Exchange) :
    ∀ s : State, (∀ x ∈ s.xt.exchanges, x.underWay = true → ∃ e ∈ l, e.tag = x.tag) →
      ∀ x ∈ (l.foldl State.setAside s).xt.exchanges, x.underWay = false := by
  induction l with
  | nil =>
    intro s h x hx
    by_contra way
    obtain ⟨e, he, -⟩ := h x hx (by simpa using way)
    cases he
  | cons e l ih =>
    intro s h
    refine ih (s.setAside e) fun x hx way => ?_
    rcases State.setAside_mem hx with ⟨hx, ht⟩ | settled
    · obtain ⟨y, hy, hyt⟩ := h x hx way
      rcases List.mem_cons.1 hy with rfl | hy
      · exact absurd hyt.symm ht
      · exact ⟨y, hy, hyt⟩
    · rw [settled] at way
      cases way

/-- Once every exchange has been set aside none is under way, and no resend is wanted. -/
theorem State.setAsideAll_settled (s : State) :
    ∀ x ∈ s.setAsideAll.xt.exchanges, x.underWay = false ∧ x.resendWanted = false := by
  intro x hx
  obtain ⟨y, hy, rfl⟩ := List.mem_map.1 hx
  have settled := State.setAside_foldl_settled (s.xt.exchanges.filter Exchange.underWay) s
    (fun z hz way => ⟨z, List.mem_filter.2 ⟨hz, way⟩, rfl⟩) y hy
  exact ⟨settled, rfl⟩

/-! ### The warm start (R188) -/

/-- The part after each block's start table, before the exchanges are set aside (R61, R140, R188). -/
def State.warmTables (s : State) (st : Settings) : State :=
  { s.warmBlocks with
    ht := s.ht.warm (s.now + st.holdLifetime * 1000000), cc := s.cc.warm (s.now + st.sealWindow * 1000000) }

theorem State.warmStart_unenrolled {s : State} (h : s.tp.settings = none) : s.warmStart = s.warmBlocks := by
  have same : s.warmBlocks.tp.settings = none := h
  simp only [State.warmStart, same]

theorem State.warmStart_enrolled {s : State} {st : Settings} (h : s.tp.settings = some st) :
    s.warmStart = ((s.warmTables st).setAsideAll.fillResults).formExposures st := by
  have same : s.warmBlocks.tp.settings = some st := h
  simp only [State.warmStart, same]
  rfl

theorem State.warmFilled_changes (s : State) (st : Settings) :
    ChangesOnly [.exchanges, .place, .results, .heldLink] (s.warmTables st) (s.warmTables st).setAsideAll.fillResults :=
  ((State.setAsideAll_changes _).mono (by decide)).trans ((State.fillResults_changes _).mono (by decide))

theorem State.warmStart_enrolled_changes {s : State} {st : Settings} (h : s.tp.settings = some st) :
    ChangesOnly [.exchanges, .place, .results, .heldLink, .peers, .saturation] (s.warmTables st) s.warmStart := by
  rw [State.warmStart_enrolled h]
  exact ((s.warmFilled_changes st).mono (by decide)).trans ((State.formExposures_changes _ st).mono (by decide))

/-- What every warm start leaves as its first steps have made it. -/
theorem State.warmStart_blocks (s : State) :
    ChangesOnly [.exchanges, .place, .results, .heldLink, .peers, .saturation, .holds, .cycles] s.warmBlocks
      s.warmStart := by
  cases h : s.tp.settings with
  | none =>
    rw [State.warmStart_unenrolled h]
    exact .refl _ _
  | some st =>
    refine ChangesOnly.trans (t := s.warmTables st) ?_ ((State.warmStart_enrolled_changes h).mono (by decide))
    intro p hp
    cases p with
    | holds | cycles => exact absurd (by decide) hp
    | _ => rfl

theorem State.setAside_lc (s : State) (e : Exchange) : (s.setAside e).lc = s.lc := by
  have finished (resolved : Bool) (o : ExOutcome) : (s.finishExchange e resolved o).lc = s.lc := by
    unfold State.finishExchange
    split <;> rfl
  unfold State.setAside
  split
  · rfl
  · rfl
  · exact finished false .noAnswer

theorem State.setAsideAll_lc (s : State) : s.setAsideAll.lc = s.lc := by
  have all (l : List Exchange) : ∀ s : State, (l.foldl State.setAside s).lc = s.lc := by
    induction l with
    | nil => exact fun s => rfl
    | cons e l ih => exact fun s => (ih _).trans (s.setAside_lc e)
  exact all _ s

/-- The Link Controller begins anew (R99, R188). -/
theorem State.warmStart_lc (s : State) : s.warmStart.lc = Link.reset s.now := by
  cases h : s.tp.settings with
  | none =>
    rw [State.warmStart_unenrolled h]
    rfl
  | some st =>
    have line : (s.warmTables st).setAsideAll.lc = Link.reset s.now := State.setAsideAll_lc _
    have noneHeld : (s.warmTables st).setAsideAll.lc.heldLink = none := by rw [line]; rfl
    rw [State.warmStart_enrolled h]
    exact (State.fillResults_lc noneHeld).trans line

section Enrolled

variable {s : State} {st : Settings}

theorem State.warmFilled_pt (s : State) (st : Settings) :
    (s.warmTables st).setAsideAll.fillResults.pt = s.pt.map PeerEntry.warm :=
  s.warmFilled_changes st .peers (by decide)

theorem State.warmFilled_heldSum (s : State) (st : Settings) (p : Nat) :
    (s.warmTables st).setAsideAll.fillResults.heldSum p = s.heldSum p := by
  have holds : (s.warmTables st).setAsideAll.fillResults.ht = (s.warmTables st).ht :=
    s.warmFilled_changes st .holds (by decide)
  rw [State.heldSum, holds]
  rfl

theorem State.warmStart_pt (h : s.tp.settings = some st) :
    s.warmStart.pt = s.pt.map fun e => e.warm.withExposure st (s.heldSum e.peer) := by
  rw [State.warmStart_enrolled h, State.formExposures_pt, State.warmFilled_pt, List.map_map]
  refine List.map_congr_left fun e _ => ?_
  rw [Function.comp_apply, State.warmFilled_heldSum]
  rfl

theorem State.warmStart_saturation (h : s.tp.settings = some st) :
    s.warmStart.mu.saturation = true ↔
      s.mu.saturation = true ∨ ∃ e ∈ s.pt, overflows (exposureSum e (s.heldSum e.peer)) = true := by
  have before : (s.warmTables st).setAsideAll.fillResults.mu.saturation = s.mu.saturation :=
    s.warmFilled_changes st .saturation (by decide)
  have same (e : PeerEntry) : exposureSum e.warm (s.heldSum e.warm.peer) = exposureSum e (s.heldSum e.peer) := rfl
  rw [State.warmStart_enrolled h, State.formExposures_saturation, State.warmFilled_pt, before]
  simp only [List.mem_map, exists_exists_and_eq_and, State.warmFilled_heldSum, same]

/-- No exchange is under way, and no resend is wanted (R118). -/
theorem State.warmStart_settled (h : s.tp.settings = some st) :
    ∀ e ∈ s.warmStart.xt.exchanges, e.state ≠ .queued ∧ e.state ≠ .waiting ∧ e.resendWanted = false := by
  rw [State.warmStart_enrolled h]
  intro e he
  obtain ⟨y, hy, hey⟩ := (s.warmTables st).setAsideAll.fillResults_from e he
  obtain ⟨settled, resend⟩ := State.setAsideAll_settled _ y hy
  obtain ⟨queued, waiting⟩ := y.not_underWay_iff.1 settled
  rcases hey with rfl | rfl <;> exact ⟨queued, waiting, resend⟩

/-- The part with its exchanges set aside by their kinds, its results not yet offered (R118). -/
def State.warmAside (s : State) : State :=
  { s with
    seq := s.seq + asideResults s.xt.exchanges
    xt := { s.xt with
      exchanges := asideExchanges s.seq s.xt.exchanges
      ended := keepLast 64 (s.xt.ended ++ asideEnded s.xt.exchanges) }
    lc := Link.reset s.now }

theorem State.warmStart_aside (h : s.tp.settings = some st) (room : withinRoom s) :
    s.warmStart.xt = s.warmAside.fillResults.xt ∧ s.warmStart.tp.results = s.warmAside.fillResults.tp.results ∧
      s.warmStart.seq = s.warmAside.seq := by
  obtain ⟨-, -, -, ended, -, -, -, tags, -⟩ := room
  have aside := State.setAsideAll_eq (s := s.warmTables st) tags ended
  have view : (s.warmTables st).setAsideAll.resultView = s.warmAside.resultView := by
    rw [aside]
    rfl
  have filled := State.fillResults_view view
  simp only [State.resultView, Prod.mk.injEq] at filled
  obtain ⟨table, results, -⟩ := filled
  have place : (s.warmTables st).setAsideAll.fillResults.seq = (s.warmTables st).setAsideAll.seq :=
    State.fillResults_changes _ .place (by decide)
  rw [State.warmStart_enrolled h]
  refine ⟨table, results, place.trans ?_⟩
  rw [aside]
  rfl

end Enrolled

theorem State.warmStart_results (s : State) : ∃ entered, s.warmStart.tp.results = s.tp.results ++ entered := by
  cases h : s.tp.settings with
  | none =>
    rw [State.warmStart_unenrolled h]
    exact ⟨[], (List.append_nil _).symm⟩
  | some st =>
    have before : (s.warmTables st).setAsideAll.tp.results = s.tp.results :=
      (s.warmTables st).setAsideAll_changes .results (by decide)
    rw [State.warmStart_enrolled h, ← before]
    exact State.fillResults_results _

theorem Cycles.warm_eq (cc : Cycles) (windowEnd : Moment) :
    cc.warm windowEnd =
      { cc with sealTimer := if cc.phase = .sweeping ∨ cc.phase = .sealing then some windowEnd else none } := by
  have timer : (cc.warm windowEnd).sealTimer =
      if cc.phase = .sweeping ∨ cc.phase = .sealing then some windowEnd else none := by
    cases h : cc.phase <;> simp [Cycles.warm, h]
  rw [← timer]
  rfl

/-! ### WIPE (R189) -/

/-- The first condition that fails refuses a WIPE, and nothing is changed. -/
theorem State.wipe_refused {s : State} {k : Nat} (h : s.wipeRefusal = some k) : s.wipe = (s, ⟨.notEmpty, [.num1 k]⟩) := by
  rw [State.wipe, h]

theorem State.wipe_done {s : State} (h : s.wipeRefusal = none) : s.wipe = (s.coldStart, .plain .ok) := by
  rw [State.wipe, h]

/-- Settles O54: what starts and losses of power do, and the parts after a cold and a warm start. -/
theorem startsAndSupplies : Obligations.StartsAndSupplies := by
  refine ⟨⟨fun s t hp => ?_, fun s t hp => ?_, fun s t => rfl⟩,
    fun s => ⟨rfl, rfl, rfl, rfl, rfl, rfl, rfl, rfl, rfl, rfl, rfl, rfl, rfl⟩, fun s => ?_, fun t => ?_⟩
  · intro u
    have rise : powerRise t s = .next (finish u) := by rw [powerRise, if_pos hp]
    refine ⟨fun low => event_powered hp t (·.resetPin low), rise, rise, event_powered hp t State.powerDown,
      fun hi token => ⟨write_says hp hi rfl, ?_⟩⟩
    intro kept
    have refused {n : Nat} (h : (begun s t).wipeRefusal = some n) : kept n :=
      write_says hp hi (State.wipe_refused h)
    refine ⟨fun h1 => refused ?_, fun h1 => ⟨fun h2 => refused ?_, fun h2 => ⟨fun h3 => refused ?_, fun h3 =>
      ⟨fun h4 => refused ?_, fun h4 => ⟨fun h5 => refused ?_, fun h5 => write_says hp hi (State.wipe_done ?_)⟩⟩⟩⟩⟩
    all_goals
      unfold State.wipeRefusal
      simp [begun, *]
  · intro u start
    have rise : powerRise t s = .next (finish start) := by
      have off : ¬ s.power = true := by simp [hp]
      rw [powerRise, if_neg off]
      rfl
    exact ⟨rise, rise⟩
  · intro u
    have port := s.warmStart_blocks .port (by decide)
    simp only [Part.same, Prod.mk.injEq] at port
    refine ⟨s.warmStart_changes.mono (by decide), port, s.warmStart_lc, s.warmStart_blocks .statements (by decide),
      s.warmStart_latched, fun st h => ?_, s.warmStart_results, fun h => ?_⟩
    · have tables := State.warmStart_enrolled_changes h
      have cycles : u.cc = s.cc.warm (s.now + st.sealWindow * 1000000) := tables .cycles (by decide)
      refine ⟨tables .holds (by decide), cycles.trans (Cycles.warm_eq _ _), State.warmStart_pt h, State.warmStart_settled h,
        State.warmStart_aside h, ?_⟩
      intro exposed
      have exposed_eq (e : PeerEntry) : exposureSum e (s.heldSum e.peer) = exposed e := by
        cases h : e.sealF <;> simp [exposureSum, exposed, h]
      rw [State.warmStart_saturation h]
      simp only [exposed_eq]
    · rw [show u = s.warmBlocks from State.warmStart_unenrolled h]
      exact ⟨rfl, rfl, rfl, rfl, rfl⟩
  · refine ⟨rfl, rfl, rfl, rfl, rfl, rfl, rfl, fun m hm => ?_, rfl, rfl, rfl, rfl, rfl, rfl⟩
    obtain ⟨p, -, rfl⟩ := List.mem_map.1 hm
    exact ⟨rfl, rfl⟩

end Sys2Proof.Machine
end

section
/-! Answers (R106, R112, R115, R117): the exchange that ends, its frame withdrawn, its result, and the booking. -/

namespace Sys2Proof.Machine

/-! ### The frames of the request queue -/

/-- The frames that stand in the request queue, in their order. -/
def State.frames (s : State) : List Frame := s.lc.requestQ.map QFrame.frame

/-- The frame belongs to the exchange of a tag (R106). -/
def Frame.belongsTo (f : Frame) (tag : Nat) : Prop := f.tag = tag ∧ f.body.ofExchange = true

theorem State.setRequestQ_frames (s : State) (q : List QFrame) : (s.setRequestQ q).frames = q.map QFrame.frame := by
  unfold State.setRequestQ
  split
  · rfl
  · split <;> rfl

theorem State.setRequestQ_driving (s : State) (q : List QFrame) :
    (s.setRequestQ q).lc.drivingRequest = s.lc.drivingRequest := by
  unfold State.setRequestQ
  split
  · rfl
  · split <;> rfl

theorem State.queueRequest_frames (s : State) (f : Frame) : (s.queueRequest f).frames = s.frames ++ [f] := by
  rw [State.queueRequest, State.setRequestQ_frames, List.map_append]
  rfl

/-- Every exchange of the tag is DONE, and no frame of it stands in the queue but at a head that is being driven (R106,
R112). -/
def State.Cleared (s : State) (tag : Nat) : Prop :=
  (∀ x ∈ s.xt.exchanges, x.tag = tag → x.state = .done) ∧ (∀ f ∈ s.frames.tail, ¬ f.belongsTo tag) ∧
    (s.lc.drivingRequest = false → ∀ f ∈ s.frames, ¬ f.belongsTo tag)

theorem State.Cleared.queueRequest {s : State} {tag : Nat} {f : Frame} (h : s.Cleared tag) (hf : ¬ f.belongsTo tag) :
    (s.queueRequest f).Cleared tag := by
  obtain ⟨done, tail, all⟩ := h
  have table : (s.queueRequest f).xt = s.xt := s.queueRequest_changes f .exchanges (by decide)
  have driving : (s.queueRequest f).lc.drivingRequest = s.lc.drivingRequest := s.setRequestQ_driving _
  refine ⟨by rwa [table], fun g hg => ?_, fun hd g hg => ?_⟩
  · rw [State.queueRequest_frames] at hg
    cases hs : s.frames with
    | nil => simp [hs] at hg
    | cons head rest =>
      rw [hs] at hg tail
      rcases List.mem_append.1 (show g ∈ rest ++ [f] from hg) with hg | hg
      · exact tail g hg
      · exact List.mem_singleton.1 hg ▸ hf
  · rw [State.queueRequest_frames] at hg
    rcases List.mem_append.1 hg with hg | hg
    · exact all (driving ▸ hd) g hg
    · exact List.mem_singleton.1 hg ▸ hf

theorem beaconFrame_free (tag : Nat) : ¬ beaconFrame.belongsTo tag := fun h => by cases h.2

theorem State.Cleared.placeBeacon {s : State} {tag : Nat} (h : s.Cleared tag) : s.placeBeacon.Cleared tag := by
  obtain ⟨done, tail, all⟩ := h
  have table : s.placeBeacon.xt = s.xt := s.placeBeacon_changes .exchanges (by decide)
  refine ⟨by rwa [table], ?_⟩
  unfold State.frames at tail all
  unfold State.placeBeacon
  cases hq : s.lc.requestQ with
  | nil =>
    rw [State.setRequestQ_frames]
    exact ⟨fun g hg => (List.not_mem_nil hg).elim, fun _ g hg => List.mem_singleton.1 hg ▸ beaconFrame_free tag⟩
  | cons head rest =>
    rw [hq] at tail all
    cases hd : s.lc.drivingRequest with
    | true =>
      simp only [if_true]
      rw [State.setRequestQ_frames, State.setRequestQ_driving, hd]
      refine ⟨fun g hg => ?_, fun hf => by cases hf⟩
      rcases List.mem_cons.1 hg with rfl | hg
      · exact beaconFrame_free tag
      · exact tail g hg
    | false =>
      simp only [Bool.false_eq_true, if_false]
      rw [State.setRequestQ_frames]
      have behind (g : Frame) (hg : g ∈ (head :: rest).map QFrame.frame) : ¬ g.belongsTo tag := all hd g hg
      refine ⟨behind, fun _ g hg => ?_⟩
      rcases List.mem_cons.1 hg with rfl | hg
      · exact beaconFrame_free tag
      · exact behind g hg

/-- Sending changes no DONE exchange to another state (R106). -/
theorem Exchange.sent_done {e : Exchange} (h : e.state = .done) : e.sent.state = .done := by
  simp [Exchange.sent, h]

theorem Exchange.sent_tag (e : Exchange) : e.sent.tag = e.tag := by
  unfold Exchange.sent
  split <;> rfl

theorem State.Cleared.sent {s : State} {tag : Nat} (h : s.Cleared tag) (k : Nat) :
    (s.modExchange k Exchange.sent).Cleared tag := by
  obtain ⟨done, tail, all⟩ := h
  refine ⟨fun x hx ht => ?_, tail, all⟩
  obtain ⟨y, hy, rfl⟩ := List.mem_map.1 hx
  have same : (if y.tag == k then y.sent else y).tag = y.tag := by
    split
    · exact y.sent_tag
    · rfl
  have before : y.state = .done := done y hy (same ▸ ht)
  split
  · exact Exchange.sent_done before
  · exact before

/-- The frame of an exchange that is offered is of no DONE exchange (R106). -/
theorem State.Cleared.offered {s : State} {tag : Nat} {e : Exchange} (h : s.Cleared tag) (he : e ∈ s.xt.exchanges)
    (ho : s.offersFrame e = true) : ¬ e.frame.belongsTo tag := by
  rintro ⟨ht, -⟩
  have done : e.state = .done := h.1 e he ht
  simp [State.offersFrame, done] at ho

theorem State.Cleared.fillOne {s t : State} {tag : Nat} (h : s.Cleared tag) (hf : s.fillOne = some t) :
    t.Cleared tag := by
  unfold State.fillOne at hf
  split at hf
  · cases hf
  · split at hf
    · obtain rfl := Option.some.inj hf
      exact State.Cleared.placeBeacon (s := { s with lc := { s.lc with heldBeacon := false } }) h
    · split at hf
      · split at hf
        · obtain rfl := Option.some.inj hf
          exact State.Cleared.queueRequest (s := s.modWanted _ _) h fun hb => by cases hb.2
        · obtain rfl := Option.some.inj hf
          exact State.Cleared.queueRequest (s := s.modWanted _ _) h fun hb => by cases hb.2
      · split at hf
        · rename_i e he
          obtain rfl := Option.some.inj hf
          exact (h.sent e.tag).queueRequest (h.offered (List.mem_of_find?_eq_some he) (List.find?_some he))
        · cases hf

theorem State.Cleared.fillRequests {s : State} {tag : Nat} (h : s.Cleared tag) : s.fillRequests.Cleared tag := by
  have times (n : Nat) : ∀ s : State, s.Cleared tag → (State.fillTimes n s).Cleared tag := by
    induction n with
    | zero => exact fun s hs => hs
    | succ n ih =>
      intro s hs
      unfold State.fillTimes
      split
      · exact ih _ (hs.fillOne ‹_›)
      · exact hs
  exact times _ s h

theorem State.Cleared.fillResults {s : State} {tag : Nat} (h : s.Cleared tag) : s.fillResults.Cleared tag := by
  obtain ⟨done, tail, all⟩ := h
  have queue : s.fillResults.lc.requestQ = s.lc.requestQ := s.fillResults_changes .requests (by decide)
  have transmitter := s.fillResults_changes .transmitter (by decide)
  simp only [Part.same, Prod.mk.injEq] at transmitter
  obtain ⟨tx, -, -⟩ := transmitter
  have driving : s.fillResults.lc.drivingRequest = s.lc.drivingRequest := by
    rw [Link.drivingRequest, tx]
    rfl
  have frames : s.fillResults.frames = s.frames := by rw [State.frames, queue, State.frames]
  refine ⟨fun x hx ht => ?_, by rwa [frames], by rwa [frames, driving]⟩
  obtain ⟨y, hy, rfl | rfl⟩ := s.fillResults_from x hx
  · exact done _ hy ht
  · exact done y hy ht

/-! ### Withdrawing a frame (R106) -/

theorem State.withdrawFrame_driving (s : State) (tag : Nat) :
    (s.withdrawFrame tag).lc.drivingRequest = s.lc.drivingRequest := by
  unfold State.withdrawFrame
  split
  · rfl
  · split <;> exact State.setRequestQ_driving s _

theorem State.withdrawFrame_cleared {s : State} {tag : Nat}
    (done : ∀ x ∈ s.xt.exchanges, x.tag = tag → x.state = .done) : (s.withdrawFrame tag).Cleared tag := by
  have table : (s.withdrawFrame tag).xt = s.xt := s.withdrawFrame_changes tag .exchanges (by decide)
  have kept {q : List QFrame} {f : Frame}
      (hf : f ∈ (q.filter fun q => !(q.frame.tag == tag && q.frame.body.ofExchange)).map QFrame.frame) :
      ¬ f.belongsTo tag := by
    obtain ⟨g, hg, rfl⟩ := List.mem_map.1 hf
    have free := (List.mem_filter.1 hg).2
    rintro ⟨ht, hb⟩
    simp [ht, hb] at free
  refine ⟨by rwa [table], ?_⟩
  rw [State.withdrawFrame_driving]
  unfold State.withdrawFrame
  cases hq : s.lc.requestQ with
  | nil =>
    have empty : s.frames = [] := by rw [State.frames, hq]; rfl
    simp only [empty]
    exact ⟨fun f hf => (List.not_mem_nil hf).elim, fun _ f hf => (List.not_mem_nil hf).elim⟩
  | cons head rest =>
    cases hd : s.lc.drivingRequest with
    | true =>
      simp only [if_true]
      rw [State.setRequestQ_frames]
      exact ⟨fun f hf => kept hf, fun hf => by cases hf⟩
    | false =>
      simp only [Bool.false_eq_true, if_false]
      rw [State.setRequestQ_frames]
      exact ⟨fun f hf => kept (List.mem_of_mem_tail hf), fun _ f hf => kept hf⟩

/-! ### The exchange that ends (R112, R117) -/

/-- The part once the exchange has ended and its frame is withdrawn, before the queues are filled. -/
def State.answeredOut (s : State) (e : Exchange) (ending : Ending) (hold trail : Option Nat) (o : ExOutcome) : State :=
  ((s.finishExchange e e.resolves o).joinEnded (e.endedEntry ending hold trail)).withdrawFrame e.tag

theorem Exchange.endedEntry_eq (e : Exchange) (ending : Ending) (hold trail : Option Nat) :
    e.endedEntry ending hold trail =
      { home := e.home, tag := e.tag, kind := e.params.kind, internal := e.internal, serial := e.serial,
        holdId := hold.or e.params.holdId?, trailNo := trail.or e.params.trail?, ending := ending } := by
  cases hold <;> cases trail <;> rfl

section Answered

variable (s : State) (e : Exchange) (ending : Ending) (hold trail : Option Nat) (o : ExOutcome)

theorem State.answeredOut_changes :
    ChangesOnly [.exchanges, .place, .requests, .draws] s (s.answeredOut e ending hold trail o) :=
  ((s.finishExchange_changes e _ o).comp (State.joinEnded_changes _ _) (rs := [.exchanges, .place]) (by decide)
    (by decide)).comp (State.withdrawFrame_changes _ _) (by decide) (by decide)

theorem State.answeredOut_exchanges :
    (s.answeredOut e ending hold trail o).xt.exchanges = (s.finishExchange e e.resolves o).xt.exchanges := by
  have table : (s.answeredOut e ending hold trail o).xt =
      ((s.finishExchange e e.resolves o).joinEnded (e.endedEntry ending hold trail)).xt :=
    State.withdrawFrame_changes _ _ .exchanges (by decide)
  rw [table]
  rfl

theorem State.finishExchange_ended : (s.finishExchange e e.resolves o).xt.ended = s.xt.ended := by
  unfold State.finishExchange
  split <;> rfl

theorem State.answeredOut_ended :
    (s.answeredOut e ending hold trail o).xt.ended = keepLast 64 (s.xt.ended ++ [e.endedEntry ending hold trail]) := by
  have table : (s.answeredOut e ending hold trail o).xt =
      ((s.finishExchange e e.resolves o).joinEnded (e.endedEntry ending hold trail)).xt :=
    State.withdrawFrame_changes _ _ .exchanges (by decide)
  rw [table, ← State.finishExchange_ended s e o]
  rfl

end Answered

section Ending

variable {s : State} {e : Exchange} {ending : Ending} {hold trail : Option Nat} {o : ExOutcome}

/-- An exchange behind the end of `e`: of another tag and untouched, or of its tag, DONE and with the result. -/
theorem State.finishExchange_cases {resolved : Bool} {x : Exchange}
    (h : x ∈ (s.finishExchange e resolved o).xt.exchanges) :
    (x.tag ≠ e.tag ∧ x ∈ s.xt.exchanges) ∨
      (x.tag = e.tag ∧ e.internal = false ∧ x.state = .done ∧
        x.result = some ⟨e.resultRec resolved o, s.seq⟩) := by
  unfold State.finishExchange at h
  split at h
  · obtain ⟨hx, ht⟩ := List.mem_filter.1 h
    exact .inl ⟨by simpa using ht, hx⟩
  · rename_i internal
    rcases State.modExchange_mem h with ⟨hx, ht⟩ | ⟨y, -, ht, rfl⟩
    · exact .inl ⟨ht, hx⟩
    · exact .inr ⟨ht, by simpa using internal, rfl, rfl⟩

/-- The exchange of a tag stays in the table, DONE, when it is not internal. -/
theorem State.finishExchange_stays {resolved : Bool} (he : e ∈ s.xt.exchanges) (hi : e.internal = false) :
    ∃ x ∈ (s.finishExchange e resolved o).xt.exchanges, x.tag = e.tag := by
  have external : ¬ e.internal = true := by simp [hi]
  rw [State.finishExchange, if_neg external]
  refine ⟨_, List.mem_map.2 ⟨e, he, rfl⟩, ?_⟩
  split <;> rfl

theorem State.answeredOut_done (x : Exchange) (hx : x ∈ (s.answeredOut e ending hold trail o).xt.exchanges)
    (ht : x.tag = e.tag) :
    e.internal = false ∧ x.state = .done ∧ x.result = some ⟨e.resultRec e.resolves o, s.seq⟩ := by
  rw [State.answeredOut_exchanges] at hx
  rcases State.finishExchange_cases hx with ⟨h, -⟩ | ⟨-, h⟩
  · exact absurd ht h
  · exact h

theorem State.answeredOut_cleared : (s.answeredOut e ending hold trail o).Cleared e.tag := by
  refine State.withdrawFrame_cleared fun x hx ht => ?_
  rcases State.finishExchange_cases (x := x) hx with ⟨h, -⟩ | ⟨-, -, done, -⟩
  · exact absurd ht h
  · exact done

theorem State.endByAnswer_cleared : (s.endByAnswer e ending hold trail o).Cleared e.tag :=
  State.answeredOut_cleared.fillResults.fillRequests

end Ending

/-! ### What the filling of the request queue leaves of an exchange -/

theorem ExchangeTable.SentOnly.mem {x y : ExchangeTable} (h : x.SentOnly y) {e : Exchange} (he : e ∈ y.exchanges) :
    ∃ d ∈ x.exchanges, d.tag = e.tag ∧ d.result = e.result := by
  have mem : e.kept ∈ x.exchanges.map Exchange.kept := h.2 ▸ List.mem_map_of_mem he
  obtain ⟨d, hd, same⟩ := List.mem_map.1 mem
  simp only [Exchange.kept, Prod.mk.injEq] at same
  obtain ⟨tag, -, -, -, -, -, -, result⟩ := same
  exact ⟨d, hd, tag, result⟩

theorem ExchangeTable.SentOnly.mem_of {x y : ExchangeTable} (h : x.SentOnly y) {d : Exchange} (hd : d ∈ x.exchanges) :
    ∃ e ∈ y.exchanges, e.tag = d.tag := by
  have mem : d.kept ∈ y.exchanges.map Exchange.kept := h.2.symm ▸ List.mem_map_of_mem hd
  obtain ⟨e, he, same⟩ := List.mem_map.1 mem
  exact ⟨e, he, congrArg Prod.fst same⟩

/-! ### The oldest waiting result (R117, R182) -/

theorem earlierOf_or (a : Exchange) (b : Option Exchange) : earlierOf a b = a ∨ some (earlierOf a b) = b := by
  unfold earlierOf
  split
  · exact .inl rfl
  · split
    · split
      · exact .inl rfl
      · exact .inr rfl
    · exact .inr rfl
    · exact .inl rfl

theorem oldestWaiting_mem {l : List Exchange} {e : Exchange} (h : oldestWaiting l = some e) :
    e ∈ l ∧ e.result.isSome = true := by
  induction l with
  | nil => cases h
  | cons a l ih =>
    unfold oldestWaiting at h
    split at h
    · rename_i waits
      rcases earlierOf_or a (oldestWaiting l) with first | later
      · obtain rfl : a = e := first.symm.trans (Option.some.inj h)
        exact ⟨List.mem_cons_self, waits⟩
      · obtain ⟨hm, hr⟩ := ih (later ▸ h)
        exact ⟨List.mem_cons_of_mem _ hm, hr⟩
    · obtain ⟨hm, hr⟩ := ih h
      exact ⟨List.mem_cons_of_mem _ hm, hr⟩

theorem oldestWaiting_none {l : List Exchange} (h : ∀ e ∈ l, e.result = none) : oldestWaiting l = none := by
  induction l with
  | nil => rfl
  | cons a l ih =>
    have first : a.result = none := h a List.mem_cons_self
    rw [oldestWaiting, first]
    exact ih fun e he => h e (List.mem_cons_of_mem _ he)

theorem oldestWaiting_some {l : List Exchange} {e : Exchange} (he : e ∈ l) (hr : e.result.isSome = true) :
    ∃ x, oldestWaiting l = some x := by
  induction l with
  | nil => cases he
  | cons a l ih =>
    unfold oldestWaiting
    split
    · exact ⟨_, rfl⟩
    · rename_i first
      rcases List.mem_cons.1 he with rfl | he
      · exact absurd hr first
      · exact ih he

/-! ### The result of the exchange that has ended (R117, R182) -/

/-- Two fillings of the result queue, the second of which finds nothing to enter. -/
theorem State.fillResults_once {s t : State} (h : s.fillResult = some t) (g : t.fillResult = none) :
    s.fillResults = t := by
  have fuel : s.fillResults = State.fillResultTimes (30 + 1 + 1) s := rfl
  rw [fuel, State.fillResultTimes, h]
  simp only [State.fillResultTimes, g]

theorem State.fillResults_idle {s : State} (h : s.fillResult = none) : s.fillResults = s := by
  have fuel : s.fillResults = State.fillResultTimes (31 + 1) s := rfl
  rw [fuel, State.fillResultTimes, h]

section Delivery

variable {s : State} {e : Exchange} {ending : Ending} {hold trail : Option Nat} {o : ExOutcome}

theorem State.answeredOut_results : (s.answeredOut e ending hold trail o).tp.results = s.tp.results :=
  s.answeredOut_changes e ending hold trail o .results (by decide)

theorem State.answeredOut_heldLink : (s.answeredOut e ending hold trail o).lc.heldLink = s.lc.heldLink :=
  s.answeredOut_changes e ending hold trail o .heldLink (by decide)

/-- With room, and with no other result waiting, the result enters and the exchange leaves the table (R117). -/
theorem State.answeredOut_delivered (he : e ∈ s.xt.exchanges) (hi : e.internal = false) (hr : s.tp.results.length < 32)
    (others : ∀ x ∈ s.xt.exchanges, x.tag ≠ e.tag → x.result = none) (hl : s.lc.heldLink = none) :
    (s.answeredOut e ending hold trail o).fillResults.tp.results = s.tp.results ++ [e.resultRec e.resolves o] ∧
      ∀ x ∈ (s.answeredOut e ending hold trail o).fillResults.xt.exchanges, x.tag ≠ e.tag := by
  have table := s.answeredOut_exchanges e ending hold trail o
  have results : (s.answeredOut e ending hold trail o).tp.results = s.tp.results := State.answeredOut_results
  have link : (s.answeredOut e ending hold trail o).lc.heldLink = none := State.answeredOut_heldLink.trans hl
  have other {x : Exchange} (hx : x ∈ (s.answeredOut e ending hold trail o).xt.exchanges) (ht : x.tag ≠ e.tag) :
      x.result = none := by
    rw [table] at hx
    rcases State.finishExchange_cases hx with ⟨-, hx⟩ | ⟨same, -⟩
    · exact others x hx ht
    · exact absurd same ht
  obtain ⟨x, hx, hxt⟩ := State.finishExchange_stays (resolved := e.resolves) (o := o) he hi
  rw [← table] at hx
  obtain ⟨-, -, hxr⟩ := State.answeredOut_done x hx hxt
  obtain ⟨m, hm⟩ := oldestWaiting_some hx (by rw [hxr]; rfl)
  obtain ⟨mem, waits⟩ := oldestWaiting_mem hm
  have tag : m.tag = e.tag := by
    by_contra ht
    rw [other mem ht] at waits
    cases waits
  obtain ⟨-, done, result⟩ := State.answeredOut_done m mem tag
  have first := State.fillResult_exchange (results ▸ hr) hm result link
  have left {y : Exchange}
      (hy : y ∈ ((s.answeredOut e ending hold trail o).enterExchange m ⟨e.resultRec e.resolves o, s.seq⟩).xt.exchanges) :
      y ∈ (s.answeredOut e ending hold trail o).xt.exchanges ∧ y.tag ≠ e.tag := by
    simp only [State.enterExchange, State.resultDelivered, done, beq_self_eq_true, if_true] at hy
    obtain ⟨hy, hne⟩ := List.mem_filter.1 hy
    exact ⟨hy, by simpa [tag] using hne⟩
  have second : ((s.answeredOut e ending hold trail o).enterExchange m ⟨e.resultRec e.resolves o, s.seq⟩).fillResult =
      none := State.fillResult_idle (oldestWaiting_none fun y hy => other (left hy).1 (left hy).2) link
  rw [State.fillResults_once first second]
  exact ⟨congrArg (· ++ [e.resultRec e.resolves o]) results, fun y hy => (left hy).2⟩

end Delivery

/-! ### The booking of an answer (R115) -/

theorem Cycles.booksSealing_iff (cc : Cycles) (b : Nat) :
    cc.booksSealing b = true ↔ ∃ ss, cc.sealing = some ss ∧ b = ss.cycle ∧ b ≠ cc.openCycle := by
  unfold Cycles.booksSealing
  cases cc.sealing <;> simp [and_comm]

theorem Cycles.booksLate_iff (cc : Cycles) (b : Nat) :
    cc.booksLate b = true ↔ b ≠ cc.openCycle ∧ ¬ ∃ ss, cc.sealing = some ss ∧ b = ss.cycle ∧ b ≠ cc.openCycle := by
  unfold Cycles.booksLate Cycles.isCurrent
  cases cc.sealing <;> simp
  grind

section Booking

variable (s : State) (p amount b : Nat) (isTaken orphan : Bool)

/-- What the booking adds to R (R115). -/
def bookedAmount (amount : Nat) (isTaken : Bool) : Int := if isTaken then amount else -(amount : Int)

theorem State.bookAnswer_pt {sealing late : Bool} (hs : s.cc.booksSealing b = sealing)
    (hl : (orphan || s.cc.booksLate b) = late) :
    (s.bookAnswer p amount b isTaken orphan).pt = s.pt.map fun e =>
      if e.peer == p then e.bookAsking sealing late isTaken amount (bookedAmount amount isTaken) else e := by
  rw [← hs, ← hl]
  rfl

theorem PeerEntry.bookAskingSat_iff (e : PeerEntry) (sealing late counts : Bool) (x : Int) :
    e.bookAskingSat sealing late counts amount x = true ↔
      e.lifeR.accSat x = true ∨ (¬ sealing = true ∧ e.openF.bookRSat x counts = true) ∨
        (sealing = true ∧ ∃ f, e.sealF = some f ∧ f.bookRSat x counts = true) ∨
        (late = true ∧ (e.openF.lateCount.incSat = true ∨ e.openF.lateAmount.accSat amount = true)) := by
  unfold PeerEntry.bookAskingSat
  cases sealing with
  | false =>
    simp
    tauto
  | true =>
    cases e.sealF <;> simp
    tauto

end Booking

/-- Settles O37: the ended exchange is followed through the two queues, and the booking by the row it falls in. -/
theorem answersEndAndAreBooked : Obligations.AnswersEndAndAreBooked := by
  refine ⟨fun s e ending hold trail o he => ?_, fun s p amount b isTaken orphan => ?_⟩
  · intro u
    have sent : (s.answeredOut e ending hold trail o).fillResults.xt.SentOnly u.xt := State.fillRequests_sentOnly _
    have results : u.tp.results = (s.answeredOut e ending hold trail o).fillResults.tp.results :=
      State.fillRequests_changes _ .results (by decide)
    have kept := (s.answeredOut e ending hold trail o).fillResults_keeps_ended
    obtain ⟨done, tail, all⟩ : u.Cleared e.tag := State.endByAnswer_cleared
    refine ⟨?_, fun x hx ht => ⟨done x hx ht, ?_⟩, fun q hq hb => ?_, fun htx q hq hb => ?_, fun resolved hres => ?_⟩
    · have ended := congrArg Prod.fst (sent.1.trans kept)
      exact ended.trans ((s.answeredOut_ended e ending hold trail o).trans (by rw [Exchange.endedEntry_eq]))
    · obtain ⟨y, hy, hyt, -⟩ := sent.mem hx
      obtain ⟨z, hz, hyz⟩ := State.fillResults_from _ y hy
      have tag : z.tag = e.tag := by
        rcases hyz with rfl | rfl <;> exact hyt.trans ht
      exact (State.answeredOut_done z hz tag).1
    · refine tail q.frame ?_ hb
      rw [State.frames, ← List.map_tail]
      exact List.mem_map_of_mem hq
    · have transmitter := s.endByAnswer_changes e ending hold trail o .transmitter (by decide)
      simp only [Part.same, Prod.mk.injEq] at transmitter
      have quiet : u.lc.drivingRequest = false := by
        rw [Link.drivingRequest, show u.lc.tx = s.lc.tx from transmitter.1]
        cases htx' : s.lc.tx with
        | idle => rfl
        | driving answer bytes start =>
          cases answer with
          | true => rfl
          | false => exact absurd htx' (htx bytes start)
      exact all quiet q.frame (List.mem_map_of_mem hq) hb
    · intro r
      have resolves : e.resolves = resolved := by
        rw [Bool.eq_iff_iff, hres]
        simp [Exchange.resolves]
      have record : e.resultRec e.resolves o = r := by
        rw [resolves]
        rfl
      refine ⟨fun hi hr others hl => ?_, fun hi hr => ?_⟩
      · obtain ⟨delivered, gone⟩ := State.answeredOut_delivered (ending := ending) (hold := hold) (trail := trail) (o := o)
          he hi hr others hl
        refine ⟨by rw [results, delivered, record], fun x hx ht => ?_⟩
        obtain ⟨y, hy, hyt, -⟩ := sent.mem hx
        exact gone y hy (hyt.trans ht)
      · have before : (s.answeredOut e ending hold trail o).tp.results = s.tp.results := State.answeredOut_results
        have full : (s.answeredOut e ending hold trail o).fillResults = s.answeredOut e ending hold trail o :=
          State.fillResults_idle (State.fillResult_full (by rwa [before]))
        rw [full] at sent results
        refine ⟨results.trans before, ?_, fun x hx ht => ?_⟩
        · obtain ⟨x, hx, hxt⟩ := State.finishExchange_stays (resolved := e.resolves) (o := o) he hi
          rw [← s.answeredOut_exchanges e ending hold trail o] at hx
          obtain ⟨y, hy, hyt⟩ := sent.mem_of hx
          exact ⟨y, hy, hyt.trans hxt⟩
        · obtain ⟨y, hy, hyt, hyr⟩ := sent.mem hx
          obtain ⟨-, -, result⟩ := State.answeredOut_done y hy (hyt.trans ht)
          rw [← hyr, result, record]
  · intro x booked late result
    have toOpen (h : b = s.cc.openCycle) : s.cc.booksSealing b = false ∧ s.cc.booksLate b = false := by
      simp [Cycles.booksSealing, Cycles.booksLate, Cycles.isCurrent, h]
    have toSealing (ss : SealingSet) (hs : s.cc.sealing = some ss) (hb : b = ss.cycle) (ho : b ≠ s.cc.openCycle) :
        s.cc.booksSealing b = true ∧ s.cc.booksLate b = false := by
      rw [hb] at ho
      simp [Cycles.booksSealing, Cycles.booksLate, Cycles.isCurrent, hs, hb, ho]
    have toNeither (ho : b ≠ s.cc.openCycle) (hs : ∀ ss, s.cc.sealing = some ss → b ≠ ss.cycle) :
        s.cc.booksSealing b = false ∧ s.cc.booksLate b = true := by
      refine ⟨?_, (s.cc.booksLate_iff b).2 ⟨ho, fun ⟨ss, h, hb, _⟩ => hs ss h hb⟩⟩
      rw [← Bool.not_eq_true, Cycles.booksSealing_iff]
      exact fun ⟨ss, h, hb, _⟩ => hs ss h hb
    refine ⟨s.bookAnswer_changes p amount b isTaken orphan, ?_, fun h ho => ?_, fun h ho => ?_,
      fun ss hs hb h ho => ?_, fun ss hs hb h ho => ?_, fun h hs => ?_⟩
    · intro e sealed isLate reports
      have raised : (s.bookAnswer p amount b isTaken orphan).mu.saturation =
          (s.mu.saturation ||
            e.bookAskingSat (s.cc.booksSealing b) (orphan || s.cc.booksLate b) isTaken amount x) := rfl
      rw [raised, Bool.or_eq_true, PeerEntry.bookAskingSat_iff, Cycles.booksSealing_iff, Bool.or_eq_true,
        Cycles.booksLate_iff]
      simp only [Figures.bookRSat, Bool.or_eq_true, Bool.and_eq_true]
      rfl
    · obtain ⟨hs, hl⟩ := toOpen h
      exact s.bookAnswer_pt p amount b isTaken orphan hs (by rw [ho, hl])
    · obtain ⟨hs, hl⟩ := toOpen h
      exact s.bookAnswer_pt p amount b isTaken orphan hs (by rw [ho, hl])
    · obtain ⟨hs, hl⟩ := toSealing ss hs hb h
      exact s.bookAnswer_pt p amount b isTaken orphan hs (by rw [ho, hl])
    · obtain ⟨hs, hl⟩ := toSealing ss hs hb h
      exact s.bookAnswer_pt p amount b isTaken orphan hs (by rw [ho, hl])
    · obtain ⟨hs, hl⟩ := toNeither h hs
      exact s.bookAnswer_pt p amount b isTaken orphan hs (by rw [hl, Bool.or_true])

end Sys2Proof.Machine
end

section
/-! What a step can do (R8): every step of the part is a sequence of single acts on the parts that the headline
statements speak of. Each act is named once here; an invariant is then one case per act. -/

namespace Sys2Proof.Machine

/-! ### Changes within bounds -/

/-- The number of an entry and whether sealing figures stand in it (R124). -/
def PeerEntry.sealKey (e : PeerEntry) : Nat × Bool := (e.peer, e.sealF.isNone)

/-- The bounds within which a part may change beside the acts named below: queues grow no further than their room,
tables are rewritten record by record, and the parts not named here are free. -/
def Part.mild : Part → State → State → Prop
  | .settings, s, t => t.tp.settings = s.tp.settings
  | .cards, s, t => t.ct.cards = s.ct.cards
  | .serials, s, t => t.ct.serialNext = s.ct.serialNext
  | .cursor, s, t => t.ct.cursor = s.ct.cursor
  | .money, s, t => t.ct.sealOwn = none ↔ s.ct.sealOwn = none
  | .holds, s, t => t.ht = s.ht
  | .trail, s, t =>
    (s.tp.settings = none → s.tr.entries = [] → t.tr.entries = []) ∧
      ∀ st, s.tp.settings = some st → s.tr.entries.length ≤ st.trailArea → t.tr.entries.length ≤ st.trailArea
  | .exchanges, s, t =>
    (t.xt.exchanges.map Exchange.tag).Sublist (s.xt.exchanges.map Exchange.tag) ∧
      t.xt.ended.length ≤ max 64 s.xt.ended.length ∧ t.xt.nextTag = s.xt.nextTag
  | .station, s, t => t.lc.station = .offline ∨ s.lc.station ≠ .offline ∨ s.tp.settings ≠ none
  | .answers, s, t => t.lc.answerQ.length ≤ max 16 s.lc.answerQ.length
  | .requests, s, t => t.lc.requestQ.length ≤ max 16 s.lc.requestQ.length
  | .results, s, t => t.tp.results.length ≤ max 32 s.tp.results.length
  | .port, s, t => t.tp.busy ≤ max 255 s.tp.busy
  | .peers, s, t => t.pt.map PeerEntry.sealKey = s.pt.map PeerEntry.sealKey
  | .cycles, s, t => t.cc = { s.cc with sealTimer := t.cc.sealTimer }
  | .statements, s, t =>
    (s.tp.settings = none → s.su.slots = [] → t.su.slots = []) ∧
      ((s.su.slots.map Slot.no).Nodup → (t.su.slots.map Slot.no).Nodup)
  | _, _, _ => True

/-- The parts that are free to change. -/
def freeParts : List Part :=
  [.now, .draws, .place, .queue, .power, .retention, .attn, .lde, .ltx, .miso, .transmitter, .beacons, .wanted, .listen,
   .heldLink, .badFrames, .sendFailed, .answerDropped, .clash, .enables, .latched, .saturation]

/-- A part that has not changed lies within its bounds. -/
theorem Part.mild_of_same {p : Part} {s t : State} (h : p.same s t) : p.mild s t := by
  cases p with
  | money =>
    have same : t.ct.sealOwn = s.ct.sealOwn := congrArg (fun x => x.2.2.2) h
    simp only [Part.mild, same]
  | port =>
    have same : t.tp.busy = s.tp.busy := congrArg (fun x => x.2.2) h
    simp only [Part.mild, same]
    exact le_max_right _ _
  | cycles =>
    have same : t.cc = s.cc := h
    simp only [Part.mild, same]
  | station =>
    have same : t.lc.station = s.lc.station := h
    rw [Part.mild, same]
    exact (em _).imp_right .inl
  | _ =>
    simp only [Part.same] at h
    simp +contextual [Part.mild, h]

theorem Part.mild_of_free {p : Part} (h : p ∈ freeParts) (s t : State) : p.mild s t := by
  cases p <;> trivial

/-- Bounds compose, the settings standing. -/
theorem Part.mild_trans {p : Part} {s t u : State} (settings : t.tp.settings = s.tp.settings) (h : p.mild s t)
    (g : p.mild t u) : p.mild s u := by
  cases p with
  | money => exact Iff.trans g h
  | trail =>
    obtain ⟨empty, room⟩ := h
    obtain ⟨empty', room'⟩ := g
    rw [settings] at empty' room'
    exact ⟨fun none h => empty' none (empty none h), fun st hst h => room' st hst (room st hst h)⟩
  | exchanges =>
    obtain ⟨tags, ended, next⟩ := h
    obtain ⟨tags', ended', next'⟩ := g
    exact ⟨tags'.trans tags, by omega, next'.trans next⟩
  | station =>
    simp only [Part.mild, settings] at h g ⊢
    rcases g with g | g | g
    · exact .inl g
    · exact .inr (h.resolve_left g)
    · exact .inr (.inr g)
  | answers | requests | results | port =>
    simp only [Part.mild] at h g ⊢
    omega
  | cycles =>
    simp only [Part.mild] at h g ⊢
    rw [g, h]
  | statements =>
    obtain ⟨empty, nodup⟩ := h
    obtain ⟨empty', nodup'⟩ := g
    rw [settings] at empty'
    exact ⟨fun none h => empty' none (empty none h), nodup' ∘ nodup⟩
  | settings | cards | serials | cursor | holds | peers => exact Eq.trans g h
  | _ => trivial

/-- Every part changes within its bounds. -/
def Mild (s t : State) : Prop := ∀ p : Part, p.mild s t

theorem Mild.refl (s : State) : Mild s s := fun p => Part.mild_of_same (ChangesOnly.refl [] s p List.not_mem_nil)

theorem Mild.trans {s t u : State} (h : Mild s t) (g : Mild t u) : Mild s u :=
  fun p => Part.mild_trans (h .settings) (h p) (g p)

/-- `Mild.trans` with the later change first. -/
theorem Mild.after {s t u : State} (g : Mild t u) (h : Mild s t) : Mild s u := h.trans g

theorem Mild.ite {s t u : State} {c : Prop} [Decidable c] (h : Mild s t) (g : Mild s u) : Mild s (if c then t else u) := by
  split
  · exact h
  · exact g

theorem Mild.foldl {α : Type} {f : State → α → State} (h : ∀ s a, Mild s (f s a)) (l : List α) :
    ∀ s, Mild s (l.foldl f s) := by
  induction l with
  | nil => exact .refl
  | cons a l ih => exact fun s => (h s a).trans (ih _)

/-- An operation that changes a few parts, each within its bounds. -/
theorem Mild.of_changes {ps : List Part} {s t : State} (h : ChangesOnly ps s t) (within : ∀ p ∈ ps, p.mild s t) :
    Mild s t := fun p => if hp : p ∈ ps then within p hp else Part.mild_of_same (h p hp)

/-- An operation that changes free parts alone. -/
theorem Mild.free {ps : List Part} {s t : State} (h : ChangesOnly ps s t) (hp : ∀ p ∈ ps, p ∈ freeParts) : Mild s t :=
  .of_changes h fun p hm => Part.mild_of_free (hp p hm) s t

/-- An operation that changes free parts and one part within its bounds. -/
theorem Mild.bounded {ps : List Part} {s t : State} (q : Part) (h : ChangesOnly ps s t) (within : q.mild s t)
    (hp : ∀ p ∈ ps, p ∈ freeParts ∨ p = q) : Mild s t := by
  refine .of_changes h fun p hm => ?_
  rcases hp p hm with hf | rfl
  · exact Part.mild_of_free hf s t
  · exact within

/-! ### The acts -/

/-- What a card record keeps to by itself (R16): held within the balance, the balance within the ceiling, nothing held
without an open hold, open holds in ACTIVE and FROZEN alone, no balance in CLOSED and LAPSED. -/
structure Card.Fair (st : Settings) (c : Card) : Prop where
  held : c.held ≤ c.balance
  ceiling : c.balance ≤ st.cardCeiling
  unheld : c.openHolds = 0 → c.held = 0
  live : 0 < c.openHolds → c.state = .active ∨ c.state = .frozen
  ended : c.state = .closed ∨ c.state = .lapsed → c.balance = 0

/-- A card record rewritten without a change to its holds. -/
structure Card.Rewritten (st : Settings) (c d : Card) : Prop where
  serial : d.serial = c.serial
  held : d.held = c.held
  openHolds : d.openHolds = c.openHolds
  fair : c.Fair st → d.Fair st

/-- The part once a hold has been granted, before the exposure of its asker is formed (R47, R49). -/
def State.granted (s : State) (st : Settings) (asker : Nat) (askTag : Option Nat) (serial asked least g : Nat) : State :=
  let s1 := { s with ht := { s.ht with
      holds := s.ht.holds ++
        [newHold s.newHoldId serial asker askTag asked least g (s.now + st.holdLifetime * 1000000)],
      openCount := s.ht.openCount + 1,
      peerOpenCount := if asker != st.station then s.ht.peerOpenCount + 1 else s.ht.peerOpenCount,
      nextId := nextInRing Config.idMax s.newHoldId } }.modCard serial fun c => c.grant g
  if asker != st.station then s1.modHeldSum asker fun x => x + g else s1

/-- A hold record rewritten as it ends. -/
structure Hold.Ends (f : Hold → Hold) : Prop where
  id : ∀ h, (f h).id = h.id
  serial : ∀ h, (f h).serial = h.serial
  asker : ∀ h, (f h).asker = h.asker
  state : ∀ h, (f h).state ≠ .held

/-- A card record rewritten as a hold of amount `a` on it ends: captured or not. -/
structure Card.Releases (a : Nat) (f : Card → Card) : Prop where
  serial : ∀ c, (f c).serial = c.serial
  state : ∀ c, (f c).state = c.state
  held : ∀ c, (f c).held = c.held - a
  openHolds : ∀ c, (f c).openHolds = c.openHolds - 1
  most : ∀ c, (f c).balance ≤ c.balance
  least : ∀ c, c.balance - a ≤ (f c).balance

/-- A rate schedule of at most two entries, in ascending order of effective cycle (R155). -/
def schedules (l : List Staged) : Prop := l.length ≤ 2 ∧ l.Pairwise (fun a b => a.effective < b.effective)

/-- One act of the part. -/
inductive Act : State → State → Prop
  | mild {s t : State} (h : Mild s t) : Act s t
  | card {s : State} {st : Settings} {c : Card} {f : Card → Card} (hs : s.tp.settings = some st)
      (hc : c ∈ s.ct.cards) (hf : c.Rewritten st (f c)) : Act s (s.modCard c.serial f)
  | issue {s : State} {st : Settings} {c : Card} (hs : s.tp.settings = some st)
      (room : s.ct.cards.length < st.cardArea) (hn : s.ct.serialNext = some c.serial) (new : c.held = 0 ∧ c.openHolds = 0)
      (fair : c.Fair st) :
      Act s { s with ct := { s.ct with cards := s.ct.cards ++ [c], serialNext := serialAfter c.serial } }
  | purge {s : State} {c : Card} (hc : c ∈ s.ct.cards) (ended : c.state = .closed ∨ c.state = .lapsed) :
      Act s { s with ct := { s.ct with cards := s.ct.cards.filter fun x => x.serial != c.serial } }
  | grant {s u : State} {st : Settings} {c : Card} {g : Nat} (hs : s.tp.settings = some st) (hc : c ∈ s.ct.cards)
      (active : c.state = .active) (room : c.openHolds < 4) (funds : g ≤ c.balance - c.held)
      (cell : s.takeCell st = some u) (asker : Nat) (askTag : Option Nat) (asked least : Nat) :
      Act s (u.granted st asker askTag c.serial asked least g)
  | endHold {s : State} {st : Settings} {h : Hold} {f : Hold → Hold} {g : Card → Card} (hs : s.tp.settings = some st)
      (hh : h ∈ s.ht.holds) (isOpen : h.state = .held) (hf : Hold.Ends f) (hg : Card.Releases h.amount g) :
      Act s ((s.modCard h.serial g).endHold st h f)
  | restart (s : State) (deadline : Moment) : Act s { s with ht := s.ht.warm deadline }
  | addExchange {s : State} (hs : s.tp.settings ≠ none) (room : s.xt.exchanges.length < 32) (p : ExParams)
      (home serial : Nat) (token : Option Token) : Act s (s.addExchange p home serial token)
  | stage {s : State} {l : List Staged} (h : schedules s.cc.schedule → schedules l) :
      Act s { s with cc := { s.cc with schedule := l } }
  | cursor {s : State} (h : s.ct.cursor ≠ none) (k : Nat) : Act s (s.setCursor (some k))
  | sweepEnd {s : State} {st : Settings} (hs : s.tp.settings = some st) (h : s.cc.phase = .sweeping) :
      Act s (s.sweepEnd st)
  | target {s : State} {x : Nat} (h : s.cc.phase ≠ .steady) (later : s.cc.openCycle < x) : Act s (s.keepTarget x)
  | close {s : State} {st : Settings} {x : Nat} (hs : s.tp.settings = some st) (h : s.cc.phase = .steady)
      (later : s.cc.openCycle < x) : Act s (s.closeAt st x)
  | pendingClose {s : State} {st : Settings} (hs : s.tp.settings = some st) : Act s (s.pendingClose st)
  | makeSeal {s : State} {st : Settings} (hs : s.tp.settings = some st)
      (h : s.ct.cursor = none ∨ s.cc.phase ≠ .sweeping) (forced : Bool) : Act s (s.makeSeal st forced)
  | completeDeferred {s : State} {st : Settings} (hs : s.tp.settings = some st) : Act s (s.completeDeferred st)
  | enrol {s : State} {f : EnrolFields} {st : Settings} (hs : s.tp.settings = none) (hf : readSettings f = .ok st) :
      Act s (s.applySettings st)
  | cold (s : State) : Act s s.coldStart

/-- What a sequence of acts leads to. -/
def Acts : State → State → Prop := Relation.ReflTransGen Act

theorem Acts.refl (s : State) : Acts s s := Relation.ReflTransGen.refl

theorem Acts.trans {s t u : State} (h : Acts s t) (g : Acts t u) : Acts s u := Relation.ReflTransGen.trans h g

/-- `Acts.trans` with the later acts first. -/
theorem Acts.after {s t u : State} (g : Acts t u) (h : Acts s t) : Acts s u := h.trans g

theorem Act.acts {s t : State} (h : Act s t) : Acts s t := .single h

theorem Acts.ite {s t u : State} {c : Prop} [Decidable c] (h : Acts s t) (g : Acts s u) :
    Acts s (if c then t else u) := by
  split
  · exact h
  · exact g

/-- What every act keeps, a sequence of them keeps. -/
theorem Acts.keeps {P : State → Prop} (step : ∀ {s t}, Act s t → P s → P t) {s t : State} (h : Acts s t) (hs : P s) :
    P t := by
  induction h with
  | refl => exact hs
  | tail _ act ih => exact step act ih

theorem Mild.acts {s t : State} (h : Mild s t) : Acts s t := .single (.mild h)

theorem Acts.free {ps : List Part} {s t : State} (h : ChangesOnly ps s t) (hp : ∀ p ∈ ps, p ∈ freeParts) : Acts s t :=
  (Mild.free h hp).acts

theorem Acts.bounded {ps : List Part} {s t : State} (q : Part) (h : ChangesOnly ps s t) (within : q.mild s t)
    (hp : ∀ p ∈ ps, p ∈ freeParts ∨ p = q) : Acts s t := (Mild.bounded q h within hp).acts

end Sys2Proof.Machine
end

section
/-! The acts of the Link Controller, the Exchange Table and the Position Table (chapters 5 to 7). -/

namespace Sys2Proof.Machine

/-- The place of the next result is free to change. -/
theorem State.place_mild (s : State) (n : Nat) : Mild s { s with seq := n } := by
  refine .free (ps := [.place]) (fun p hp => ?_) (by decide)
  cases p <;> simp_all [Part.same]

/-! ### The request queue (R80, R84) -/

theorem State.setRequestQ_requestQ_length (s : State) (q : List QFrame) :
    (s.setRequestQ q).lc.requestQ.length = q.length := by
  have same := congrArg List.length (s.setRequestQ_frames q)
  simpa [State.frames] using same

theorem State.setRequestQ_mild (s : State) {q : List QFrame} (h : q.length ≤ max 16 s.lc.requestQ.length) :
    Mild s (s.setRequestQ q) :=
  .bounded .requests (s.setRequestQ_changes q) (by rw [Part.mild, s.setRequestQ_requestQ_length]; exact h) (by decide)

theorem State.queueRequest_mild {s : State} (h : s.lc.requestQ.length < 16) (f : Frame) : Mild s (s.queueRequest f) :=
  s.setRequestQ_mild (by rw [List.length_append]; simp only [List.length_singleton]; omega)

theorem State.placeBeacon_mild {s : State} (h : s.lc.requestQ.length < 16) : Mild s s.placeBeacon := by
  unfold State.placeBeacon
  split
  · exact s.setRequestQ_mild (by simp)
  next head rest hq =>
    rw [hq, List.length_cons] at h
    split <;> exact s.setRequestQ_mild (by simp only [List.length_cons]; omega)

theorem State.modWanted_mild (s : State) (p : Nat) (f : WantedMarks → WantedMarks) : Mild s (s.modWanted p f) :=
  .free (s.modWanted_changes p f) (by decide)

/-- The tags of the exchanges after one change that keeps the tag of the one it changes. -/
theorem State.modExchange_tags (s : State) (tag : Nat) {f : Exchange → Exchange} (hf : ∀ e, (f e).tag = e.tag) :
    (s.modExchange tag f).xt.exchanges.map Exchange.tag = s.xt.exchanges.map Exchange.tag := by
  rw [State.modExchange, List.map_map]
  refine List.map_congr_left fun e _ => ?_
  by_cases h : e.tag = tag <;> simp [h, hf]

theorem State.modExchange_mild (s : State) (tag : Nat) {f : Exchange → Exchange} (hf : ∀ e, (f e).tag = e.tag) :
    Mild s (s.modExchange tag f) := by
  refine .bounded .exchanges (s.modExchange_changes tag f) ⟨?_, le_max_right _ _, rfl⟩ (by decide)
  rw [s.modExchange_tags tag hf]

theorem State.fillOne_mild {s t : State} (h : s.fillOne = some t) : Mild s t := by
  unfold State.fillOne at h
  split at h; · cases h
  next room =>
  simp only [Bool.or_eq_true, decide_eq_true_eq, not_or, not_le] at room
  have room : s.lc.requestQ.length < 16 := room.2
  have marked (p : Nat) (f : WantedMarks → WantedMarks) (x : Frame) : Mild s ((s.modWanted p f).queueRequest x) :=
    (s.modWanted_mild p f).trans (State.queueRequest_mild (s := s.modWanted p f) room x)
  split at h
  · obtain rfl := Option.some.inj h
    have released : ChangesOnly [.beacons] s { s with lc := { s.lc with heldBeacon := false } } := by
      intro p hp; cases p <;> simp_all [Part.same]
    exact (Mild.free released (by decide)).trans (State.placeBeacon_mild (by exact room))
  split at h
  · split at h <;> obtain rfl := Option.some.inj h <;> exact marked _ _ _
  split at h
  · obtain rfl := Option.some.inj h
    exact (s.modExchange_mild _ Exchange.sent_tag).trans
      (State.queueRequest_mild (s := s.modExchange _ Exchange.sent) room _)
  · cases h

theorem State.fillTimes_mild (n : Nat) : ∀ s : State, Mild s (State.fillTimes n s) := by
  induction n with
  | zero => exact .refl
  | succ n ih =>
    intro s
    unfold State.fillTimes
    cases h : s.fillOne with
    | none => exact .refl s
    | some t => exact (State.fillOne_mild h).trans (ih t)

theorem State.fillRequests_mild (s : State) : Mild s s.fillRequests := s.fillTimes_mild _

theorem State.makeBeacon_mild (s : State) : Mild s s.makeBeacon := by
  unfold State.makeBeacon
  refine .ite (.refl s) ?_
  split
  next room => exact State.placeBeacon_mild room
  · refine .free (ps := [.beacons]) (fun p hp => ?_) (by decide)
    cases p <;> simp_all [Part.same]

theorem State.beaconDue_mild (s : State) (m : Moment) : Mild s (s.beaconDue m) := by
  refine Mild.trans (.free (ps := [.beacons, .draws]) (fun p hp => ?_) (by decide)) (State.makeBeacon_mild _)
  cases p <;> simp_all [Part.same]

theorem State.withdrawFrame_mild (s : State) (tag : Nat) : Mild s (s.withdrawFrame tag) := by
  unfold State.withdrawFrame
  split
  · exact .refl s
  next head rest hq =>
    have kept (f : QFrame → Bool) (l : List QFrame) (h : l.length ≤ s.lc.requestQ.length) :
        (l.filter f).length ≤ max 16 s.lc.requestQ.length :=
      (List.length_filter_le f l).trans (h.trans (le_max_right _ _))
    refine .ite (s.setRequestQ_mild ?_) (s.setRequestQ_mild (kept _ _ (by rw [hq])))
    rw [List.length_cons]
    have tail := List.length_filter_le (fun q => !(q.frame.tag == tag && q.frame.body.ofExchange)) rest
    rw [hq, List.length_cons]
    omega

/-! ### The answer queue (R83) -/

theorem State.offerAnswer_mild (s : State) (f : Frame) : Mild s (s.offerAnswer f) := by
  refine .bounded .answers (s.offerAnswer_changes f) ?_ (by decide)
  unfold State.offerAnswer
  split
  next room =>
    simp only [Config.linkQueueMax] at room
    simp only [Part.mild, List.length_append, List.length_singleton]
    omega
  · exact le_max_right _ _

theorem State.answerTo_mild (s : State) (source tag : Nat) (b : Body) : Mild s (s.answerTo source tag b) :=
  s.offerAnswer_mild _

/-! ### The result queue (R117, R182) -/

theorem State.enterResult_mild {s : State} (room : s.tp.results.length < 32) (r : ResultRec) :
    Mild s (s.enterResult r) := by
  refine .bounded .results (s.enterResult_changes r) ?_ (by decide)
  simp only [Part.mild, State.enterResult, List.length_append, List.length_singleton]
  omega

theorem State.resultDelivered_mild (s : State) (e : Exchange) : Mild s (s.resultDelivered e) := by
  refine .bounded .exchanges (s.resultDelivered_changes e) ⟨?_, le_max_right _ _, rfl⟩ (by decide)
  unfold State.resultDelivered
  dsimp only
  split
  · exact List.filter_sublist.map _
  · exact (s.modExchange_tags e.tag (f := fun x => { x with result := none }) fun _ => rfl).symm ▸ .refl _

theorem State.fillResult_mild {s t : State} (h : s.fillResult = some t) : Mild s t := by
  obtain ⟨room, ⟨e, x, -, -, rfl⟩ | ⟨w, -, rfl⟩⟩ := State.fillResult_cases h
  · exact (State.enterResult_mild room _).trans (State.resultDelivered_mild _ e)
  · refine (State.enterResult_mild room w.result).trans (.free (ps := [.heldLink]) (fun p hp => ?_) (by decide))
    cases p <;> simp_all [Part.same, State.enterLink]

theorem State.fillResults_mild (s : State) : Mild s s.fillResults :=
  State.fillResults_ind (P := Mild s) (fun _ _ h hf => h.trans (State.fillResult_mild hf)) (.refl s)

theorem State.linkResult_mild (s : State) (o : LinkOutcome) : Mild s (s.linkResult o) := by
  unfold State.linkResult
  dsimp only
  split
  next room => exact State.enterResult_mild room _
  · refine .free (ps := [.heldLink, .place]) (fun p hp => ?_) (by decide)
    cases p <;> simp_all [Part.same]

/-! ### The Position Table (R121 to R133) -/

theorem State.modPeer_mild (s : State) (p : Nat) {f : PeerEntry → PeerEntry} (hf : ∀ e, (f e).sealKey = e.sealKey) :
    Mild s (s.modPeer p f) := by
  refine .bounded .peers (s.modPeer_changes p f) ?_ (by decide)
  rw [Part.mild, State.modPeer_pt, List.map_map]
  refine List.map_congr_left fun e _ => ?_
  by_cases h : e.peer = p <;> simp [h, hf]

theorem State.modPeers_mild (s : State) {f : PeerEntry → PeerEntry} (hf : ∀ e, (f e).sealKey = e.sealKey) :
    Mild s (s.modPeers f) := by
  refine .bounded .peers (s.modPeers_changes f) ?_ (by decide)
  rw [Part.mild, State.modPeers_pt, List.map_map]
  exact List.map_congr_left fun e _ => hf e

theorem State.raiseSat_mild (s : State) (b : Bool) : Mild s (s.raiseSat b) := .free (s.raiseSat_changes b) (by decide)

theorem relatch_mild (s : State) : Mild s (relatch s) := .free (relatch_changes s) (by decide)

theorem State.formExposure_mild (s : State) (st : Settings) (p : Nat) : Mild s (s.formExposure st p) :=
  (State.raiseSat_mild _ _).after (s.modPeer_mild p fun _ => rfl)

theorem State.formExposures_mild (s : State) (st : Settings) : Mild s (s.formExposures st) :=
  (State.raiseSat_mild _ _).after (s.modPeers_mild fun _ => rfl)

theorem State.bookLiability_mild (s : State) (st : Settings) (p : Nat) (x : Int) : Mild s (s.bookLiability st p x) :=
  (State.formExposure_mild _ st p).after ((State.raiseSat_mild _ _).after (s.modPeer_mild p fun _ => rfl))

theorem PeerEntry.bookAsking_sealKey (e : PeerEntry) (toSealing late counts : Bool) (amount : Nat) (x : Int) :
    (e.bookAsking toSealing late counts amount x).sealKey = e.sealKey := by
  unfold PeerEntry.bookAsking PeerEntry.sealKey
  cases toSealing <;> cases late <;> simp

theorem State.bookAnswer_mild (s : State) (p amount b : Nat) (counts orphan : Bool) :
    Mild s (s.bookAnswer p amount b counts orphan) :=
  (s.modPeer_mild p fun e => e.bookAsking_sealKey _ _ _ _ _).trans (State.raiseSat_mild _ _)

theorem State.setTallyWanted_mild (s : State) (p : Nat) : Mild s (s.setTallyWanted p) :=
  (s.modWanted_mild p _).trans (State.fillRequests_mild _)

theorem State.setCheckWanted_mild (s : State) (p : Nat) : Mild s (s.setCheckWanted p) :=
  (s.modWanted_mild p _).trans (State.fillRequests_mild _)

theorem State.askTally_mild (s : State) (p : Nat) : Mild s (s.askTally p) := .ite (s.setTallyWanted_mild p) (.refl s)

theorem State.askCheck_mild (s : State) (p : Nat) : Mild s (s.askCheck p) := .ite (s.setCheckWanted_mild p) (.refl s)

theorem State.askOwed_mild (s : State) (p : Nat) : Mild s (s.askOwed p) :=
  (s.askTally_mild p).trans (State.askCheck_mild _ p)

theorem State.askOwedAll_mild (s : State) : Mild s s.askOwedAll := .foldl State.askOwed_mild _ s

theorem State.askTallies_mild (s : State) (st : Settings) : Mild s (s.askTallies st) := .foldl State.askTally_mild _ s

theorem State.hearPeer_mild (s : State) (h : Header) : Mild s (s.hearPeer h) := by
  have heard : Mild s (s.modPeer h.source fun e => e.hear s.now h) := s.modPeer_mild _ fun _ => rfl
  exact .ite (heard.trans (State.askOwed_mild _ _)) heard

theorem State.forgetPresence_mild (s : State) : Mild s s.forgetPresence := s.modPeers_mild fun _ => rfl

theorem State.protocolFault_mild (s : State) (p : Nat) : Mild s (s.protocolFault p) :=
  (relatch_mild _).after (s.modPeer_mild p fun _ => rfl)

theorem PeerEntry.takeTally_sealKey (e : PeerEntry) (cc : Cycles) (y : Tally) : (e.takeTally cc y).sealKey = e.sealKey := by
  unfold PeerEntry.takeTally
  split <;> rfl

theorem State.onTally_mild (s : State) (h : Header) (y : Tally) : Mild s (s.onTally h y) :=
  (s.modPeer_mild _ fun e => e.takeTally_sealKey _ _).trans (State.raiseSat_mild _ _)

theorem State.onCheck_mild (s : State) (h : Header) : Mild s (s.onCheck h) := .ite (.refl s) (s.setTallyWanted_mild _)

theorem PeerEntry.absentAt_sealKey (e : PeerEntry) (now : Moment) : (e.absentAt now).sealKey = e.sealKey := by
  unfold PeerEntry.absentAt
  split
  · split <;> rfl
  · rfl

theorem State.peerAbsent_mild (s : State) (p : Nat) : Mild s (s.peerAbsent p) :=
  s.modPeer_mild p fun e => e.absentAt_sealKey _

theorem State.clearPeer_mild (s : State) (p : Nat) : Mild s (s.clearPeer p).1 := by
  unfold State.clearPeer
  split
  · exact (State.askCheck_mild _ p).after (s.modPeer_mild p fun _ => rfl)
  · exact (State.askCheck_mild _ p).after (s.modPeer_mild p fun _ => rfl)
  · exact .refl s

theorem State.adjust_mild (s : State) (p : Nat) (dR dL : Int) : Mild s (s.adjust p dR dL).1 :=
  (State.raiseSat_mild _ _).after (s.modPeer_mild p fun _ => rfl)

/-! ### The Exchange Table (R100 to R118) -/

/-- What leaves the tags a sublist, the ended list within its room and the tag counter as it was. -/
theorem State.exchanges_mild {s t : State} {ps : List Part} (h : ChangesOnly ps s t)
    (tags : (t.xt.exchanges.map Exchange.tag).Sublist (s.xt.exchanges.map Exchange.tag))
    (ended : t.xt.ended.length ≤ max 64 s.xt.ended.length) (next : t.xt.nextTag = s.xt.nextTag)
    (hp : ∀ p ∈ ps, p ∈ freeParts ∨ p = .exchanges) : Mild s t := .bounded .exchanges h ⟨tags, ended, next⟩ hp

theorem State.joinEnded_mild (s : State) (e : EndedEntry) : Mild s (s.joinEnded e) :=
  State.exchanges_mild (s.joinEnded_changes e) (.refl _)
    ((keepLast_length_le Config.endedMax _).trans (le_max_left _ _)) rfl (by decide)

theorem State.finishExchange_mild (s : State) (e : Exchange) (resolved : Bool) (o : ExOutcome) :
    Mild s (s.finishExchange e resolved o) := by
  unfold State.finishExchange
  split
  · refine State.exchanges_mild (ps := [.exchanges]) (fun p hp => ?_) (List.filter_sublist.map _) (le_max_right _ _) rfl
      (by decide)
    cases p <;> simp_all [Part.same]
  · exact (State.place_mild _ _).after (s.modExchange_mild e.tag fun _ => rfl)

theorem State.endByAnswer_mild (s : State) (e : Exchange) (ending : Ending) (hold trail : Option Nat) (o : ExOutcome) :
    Mild s (s.endByAnswer e ending hold trail o) :=
  ((((s.finishExchange_mild e _ o).trans (State.joinEnded_mild _ _)).trans (State.withdrawFrame_mild _ _)).trans
    (State.fillResults_mild _)).trans (State.fillRequests_mild _)

theorem State.setAside_mild (s : State) (e : Exchange) : Mild s (s.setAside e) := by
  have unsure : Mild s { s.modExchange e.tag fun x => { x with
      state := .unsure, replyDeadline := none, resendWanted := false,
      result := some ⟨e.resultRec false (.unsure e.sends), s.seq⟩ } with seq := s.seq + 1 } :=
    (State.place_mild _ _).after (s.modExchange_mild e.tag fun _ => rfl)
  have unanswered : Mild s ((s.finishExchange e false .noAnswer).joinEnded (e.endedEntry .noAnswer none none)) :=
    (s.finishExchange_mild e false .noAnswer).trans (State.joinEnded_mild _ _)
  unfold State.setAside
  split
  · exact unsure
  · exact unsure
  · exact unanswered

/-- Every exchange rewritten with its tag kept. -/
theorem State.modExchanges_mild (s : State) {f : Exchange → Exchange} (hf : ∀ e, (f e).tag = e.tag) :
    Mild s { s with xt := { s.xt with exchanges := s.xt.exchanges.map f } } := by
  refine State.exchanges_mild (ps := [.exchanges]) (fun p hp => ?_) ?_ (le_max_right _ _) rfl (by decide)
  · cases p <;> simp_all [Part.same]
  · have tags : Exchange.tag ∘ f = Exchange.tag := funext hf
    rw [List.map_map, tags]

theorem State.setAsideAll_mild (s : State) : Mild s s.setAsideAll :=
  (State.modExchanges_mild _ (f := fun e => { e with resendWanted := false }) fun _ => rfl).after (Mild.foldl State.setAside_mild _ s)

theorem State.reportFrame_mild (s : State) (tag : Nat) (m : Moment) : Mild s (s.reportFrame tag m) := by
  refine s.modExchange_mild tag fun e => ?_
  split <;> rfl

theorem State.replyTimeout_mild (s : State) (tag : Nat) : Mild s (s.replyTimeout tag) := by
  unfold State.replyTimeout
  split; · exact .refl s
  split
  · refine .ite (.ite ?_ ?_) (.refl s)
    · exact (State.fillRequests_mild _).after (s.modExchange_mild tag fun _ => rfl)
    · exact (s.setAside_mild _).trans (State.fillResults_mild _)
  · exact .refl s

theorem State.wantResends_mild (s : State) (home : Nat) : Mild s (s.wantResends home) := by
  refine (State.fillRequests_mild _).after (s.modExchanges_mild fun e => ?_)
  split <;> rfl

theorem State.onBeacon_mild (s : State) (h : Header) : Mild s (s.onBeacon h) :=
  (s.askOwed_mild _).trans (State.wantResends_mild _ _)

theorem State.takeAnswer_mild (s : State) (source : Nat) (e : Exchange) (b : Body) :
    Mild s (s.takeAnswer source e b) := by
  cases b with
  | taken => exact (s.bookAnswer_mild _ _ _ _ _).trans (State.endByAnswer_mild _ _ _ _ _ _)
  | credited => exact (s.bookAnswer_mild _ _ _ _ _).trans (State.endByAnswer_mild _ _ _ _ _ _)
  | grant => exact s.endByAnswer_mild _ _ _ _ _
  | freed => exact s.endByAnswer_mild _ _ _ _ _
  | refuse => exact s.endByAnswer_mild _ _ _ _ _
  | _ => exact .refl s

theorem State.openExchange_acts {s : State} (hs : s.tp.settings ≠ none) (p : ExParams) (home serial : Nat)
    (token : Token) : Acts s (s.openExchange p home serial token).1 := by
  unfold State.openExchange
  split; · exact .refl s
  split; · exact .refl s
  next admitted =>
  refine (Act.addExchange hs ?_ p home serial (some token)).acts.trans (State.fillRequests_mild _).acts
  unfold State.admissionStatus at admitted
  split_ifs at admitted
  next room => exact not_le.1 room

theorem State.orphanGrant_acts {s : State} (hs : s.tp.settings ≠ none) (source tag id : Nat) :
    Acts s (s.orphanGrant source tag id) := by
  unfold State.orphanGrant
  split; · exact .refl s
  split; · exact .refl s
  split; · exact .refl s
  next free =>
  simp only [Bool.or_eq_true, decide_eq_true_eq, not_or, not_le] at free
  exact (Act.addExchange hs free.2 _ _ _ none).acts.trans (State.fillRequests_mild _).acts

theorem State.orphan_acts {s : State} (hs : s.tp.settings ≠ none) (source tag : Nat) (b : Body) :
    Acts s (s.orphan source tag b) := by
  cases b with
  | grant => exact State.orphanGrant_acts hs _ _ _
  | taken => exact (s.bookAnswer_mild _ _ _ _ _).acts
  | credited => exact (s.bookAnswer_mild _ _ _ _ _).acts
  | _ => exact .refl s

theorem State.serveAnswer_acts {s : State} (hs : s.tp.settings ≠ none) (source tag : Nat) (b : Body) :
    Acts s (s.serveAnswer source tag b) := by
  unfold State.serveAnswer
  split
  · exact (s.takeAnswer_mild _ _ _).acts
  · exact .ite (.refl s) (State.orphan_acts hs _ _ _)

end Sys2Proof.Machine
end

section
/-! The acts of the Card Table, the Hold Table and the Capture Trail (chapters 2 to 4). -/

namespace Sys2Proof.Machine

/-! ### Card records (R16 to R35) -/

theorem State.findCard_mem {s : State} {n : Nat} {c : Card} (h : s.findCard n = some c) :
    c ∈ s.ct.cards ∧ c.serial = n := ⟨List.mem_of_find?_eq_some h, by simpa using List.find?_some h⟩

/-- The money of the Card Table is free to change while its sealing totals come and go with nothing. -/
theorem State.money_acts (s : State) (float : Int) (life : LifeTotals) (own : OwnTotals) {sealing : Option OwnTotals}
    (h : sealing = none ↔ s.ct.sealOwn = none) :
    Acts s { s with ct := { s.ct with float := float, life := life, openOwn := own, sealOwn := sealing } } := by
  refine .bounded .money (ps := [.money]) (fun p hp => ?_) h (by decide)
  cases p <;> simp_all [Part.same]

theorem Card.due_iff (c : Card) (o : Nat) :
    c.due o = true ↔ (c.state = .active ∨ c.state = .frozen) ∧ ∃ x, c.expiry = some x ∧ x ≤ o := by
  unfold Card.due
  cases c.expiry <;> simp

theorem Card.lapse_rewritten (st : Settings) (c : Card) (h : c.openHolds = 0) (o : Nat) : c.Rewritten st (c.lapse o) where
  serial := rfl
  held := rfl
  openHolds := rfl
  fair fair :=
    { held := (fair.unheld h).le
      ceiling := Nat.zero_le _
      unheld := fair.unheld
      live := fun pos => absurd h pos.ne'
      ended := fun _ => rfl }

variable {s : State} {st : Settings}

theorem State.lapseCard_acts (hs : s.tp.settings = some st) {c : Card} (hc : c ∈ s.ct.cards) (h : c.openHolds = 0) :
    Acts s (s.lapseCard c) := by
  have lapsed : Acts s (s.modCard c.serial fun c => c.lapse s.cc.openCycle) :=
    (Act.card hs hc (c.lapse_rewritten st h _)).acts
  unfold State.lapseCard
  refine (lapsed.trans (State.money_acts _ _ _ _ ?_)).trans (State.raiseSat_mild _ _).acts
  split <;> simp

theorem State.lapseIfDue_acts (hs : s.tp.settings = some st) (n : Nat) : Acts s (s.lapseIfDue n) := by
  unfold State.lapseIfDue
  split
  next c hc =>
    split
    next due =>
      simp only [Bool.and_eq_true, beq_iff_eq] at due
      exact State.lapseCard_acts hs (State.findCard_mem hc).1 due.2
    · exact .refl s
  · exact .refl s

theorem State.lapseIfDue_settings (s : State) (n : Nat) : (s.lapseIfDue n).tp.settings = s.tp.settings :=
  s.lapseIfDue_changes n .settings (by decide)

theorem State.floatIn_acts (s : State) (a : Nat) : Acts s (s.floatIn a) :=
  (s.money_acts _ _ _ Iff.rfl).trans (State.raiseSat_mild _ _).acts

theorem State.issue_acts (hs : s.tp.settings = some st) (a v : Nat) : Acts s (s.issue st a v).1 := by
  unfold State.issue
  split; · exact .refl s
  split; · exact .refl s
  next ceiling =>
  split; · exact .refl s
  split; · exact .refl s
  next room =>
  split; · exact .refl s
  next n hn =>
  refine (State.floatIn_acts _ a).after
    (Act.issue hs (not_le.1 room) (c := ⟨n, .active, a, 0, 0, expiryOf s.cc.openCycle (appliedValidity v),
      s.cc.openCycle, s.cc.openCycle⟩) hn ⟨rfl, rfl⟩ ?_).acts
  exact
    { held := Nat.zero_le _, ceiling := not_lt.1 ceiling, unheld := fun _ => rfl, live := fun h => absurd h (lt_irrefl _)
      ended := fun h => by simp at h }

/-- A till command naming a serial: what its own checks come to on the record the access test has left (R32). -/
theorem State.onCard_acts (hs : s.tp.settings = some st) (n : Nat) {f : State → Card → State × Reply}
    (h : ∀ t c, t.tp.settings = some st → c ∈ t.ct.cards → c.serial = n → Acts t (f t c).1) :
    Acts s (s.onCard n f).1 := by
  unfold State.onCard
  split; · exact .refl s
  have lapsed := State.lapseIfDue_acts hs n
  dsimp only
  split; · exact lapsed
  next c hc =>
  obtain ⟨mem, serial⟩ := State.findCard_mem hc
  exact lapsed.trans (h _ c ((s.lapseIfDue_settings n).trans hs) mem serial)

theorem State.loadCard_acts (hs : s.tp.settings = some st) {c : Card} (hc : c ∈ s.ct.cards) (active : c.state = .active)
    {a : Nat} (room : a ≤ st.cardCeiling - c.balance) : Acts s (s.loadCard c a).1 := by
  refine (State.floatIn_acts _ a).after (Act.card hs hc ⟨rfl, rfl, rfl, fun fair => ?_⟩).acts
  have ceiling := fair.ceiling
  exact
    { held := fair.held.trans (Nat.le_add_right _ _), ceiling := (by change c.balance + a ≤ _; omega), unheld := fair.unheld
      live := fair.live, ended := fun h => by simp [active] at h }

theorem State.load_acts (hs : s.tp.settings = some st) (n a : Nat) : Acts s (s.load st n a).1 := by
  refine State.onCard_acts hs n fun t c ht hc _ => ?_
  have stay := Acts.refl t
  split; · exact stay
  split; · exact stay
  split
  · exact stay
  · exact stay
  · exact stay
  next active =>
  split; · exact stay
  next room =>
  split; · exact stay
  exact State.loadCard_acts ht hc active (not_lt.1 room)

theorem State.cashoutCard_acts (hs : s.tp.settings = some st) {c : Card} (hc : c ∈ s.ct.cards) (h : c.openHolds = 0) :
    Acts s (s.cashoutCard c).1 := by
  have closed : Acts s (s.modCard c.serial fun c => { c with state := .closed, balance := 0, lastChange := s.cc.openCycle }) :=
    (Act.card hs hc ⟨rfl, rfl, rfl, fun fair =>
      { held := (fair.unheld h).le, ceiling := Nat.zero_le _, unheld := fair.unheld
        live := fun pos => absurd h (Nat.pos_iff_ne_zero.1 pos), ended := fun _ => rfl }⟩).acts
  unfold State.cashoutCard
  exact (closed.trans (State.money_acts _ _ _ _ Iff.rfl)).trans (State.raiseSat_mild _ _).acts

theorem State.cashout_acts (hs : s.tp.settings = some st) (n : Nat) : Acts s (s.cashout n).1 := by
  refine State.onCard_acts hs n fun t c ht hc _ => ?_
  have stay := Acts.refl t
  split; · exact stay
  split; · exact stay
  split; · exact stay
  next unheld => exact State.cashoutCard_acts ht hc (by omega)

theorem State.setFrozen_acts (hs : s.tp.settings = some st) (n : Nat) {goal : CardState}
    (hg : goal = .active ∨ goal = .frozen) : Acts s (s.setFrozen n goal).1 := by
  refine State.onCard_acts hs n fun t c ht hc hn => ?_
  have stay := Acts.refl t
  split; · exact stay
  split; · exact stay
  split; · exact stay
  subst hn
  refine (Act.card ht hc ⟨rfl, rfl, rfl, fun fair => ?_⟩).acts
  exact
    { held := fair.held, ceiling := fair.ceiling, unheld := fair.unheld, live := fun _ => hg
      ended := fun h => by rcases hg with rfl | rfl <;> simp at h }

theorem State.enquireOwn_acts (hs : s.tp.settings = some st) (n : Nat) : Acts s (s.enquireOwn n).1 :=
  State.onCard_acts hs n fun t _ _ _ _ => .refl t

theorem State.examine_acts (hs : s.tp.settings = some st) {c : Card} (hc : c ∈ s.ct.cards) : Acts s (s.examine st c) := by
  unfold State.examine
  dsimp only
  split; · exact .refl s
  split
  next due =>
    simp only [Bool.and_eq_true, beq_iff_eq] at due
    exact State.lapseCard_acts hs hc due.2
  split
  next old =>
    simp only [Bool.and_eq_true, Bool.or_eq_true, beq_iff_eq] at old
    exact (Act.purge hc old.1).acts
  · exact (Act.card hs hc ⟨rfl, rfl, rfl, fun fair => ⟨fair.held, fair.ceiling, fair.unheld, fair.live, fair.ended⟩⟩).acts

/-! ### Grants (R43, R47) -/

theorem State.makeHold_eq (s : State) (st : Settings) (asker : Nat) (askTag : Option Nat) (serial asked least g : Nat) :
    s.makeHold st asker askTag serial asked least g =
      if asker != st.station then (s.granted st asker askTag serial asked least g).formExposure st asker
      else s.granted st asker askTag serial asked least g := by
  unfold State.makeHold State.granted
  dsimp only
  split <;> rfl

theorem grantOf_granted {a l v g r w : Nat} (h : grantOf a l v = .granted g r w) : a ≠ 0 ∧ g ≤ v := by
  unfold grantOf at h
  split_ifs at h <;> cases h <;> omega

theorem CardState.refusesHold_eq_none {x : CardState} (h : x.refusesHold = none) : x = .active := by
  cases x <;> simp_all [CardState.refusesHold]

theorem State.grantOn_acts (hs : s.tp.settings = some st) {c : Card} (hc : c ∈ s.ct.cards) (active : c.state = .active)
    (asker : Nat) (askTag : Option Nat) (asked least : Nat) : Acts s (s.grantOn st asker askTag c asked least).1 := by
  unfold State.grantOn
  split; · exact .refl s
  next few =>
  split
  · exact .refl s
  · exact .refl s
  next g r v hg =>
  split; · exact .refl s
  next u hu =>
  obtain ⟨asks, funds⟩ := grantOf_granted hg
  have room : c.openHolds < 4 := not_le.1 fun full => few ⟨asks, full⟩
  have grant := (Act.grant hs hc active room funds hu asker askTag asked least).acts
  rw [State.makeHold_eq]
  exact .ite (grant.trans (State.formExposure_mild _ _ _).acts) grant

theorem State.requestHold_acts (hs : s.tp.settings = some st) (asker : Nat) (askTag : Option Nat)
    (home serial asked least : Nat) : Acts s (s.requestHold st asker askTag home serial asked least).1 := by
  unfold State.requestHold
  split; · exact .refl s
  split; · exact .refl s
  have lapsed := State.lapseIfDue_acts hs serial
  dsimp only
  split; · exact lapsed
  next c hc =>
  split; · exact lapsed
  split; · exact lapsed
  next fit =>
  exact lapsed.trans (State.grantOn_acts ((s.lapseIfDue_settings serial).trans hs) (State.findCard_mem hc).1
    (CardState.refusesHold_eq_none fit) _ _ _ _)

theorem State.serveAsk_acts (hs : s.tp.settings = some st) (asker tag home serial asked least : Nat) :
    Acts s (s.serveAsk st asker tag home serial asked least).1 := by
  unfold State.serveAsk
  split; · exact .refl s
  split; · exact .refl s
  split; · exact .refl s
  split; · exact .refl s
  split
  · split
    · exact .refl s
    · exact (s.protocolFault_mild asker).acts
  · exact State.requestHold_acts hs _ _ _ _ _ _

theorem State.authorizeOwn_acts (hs : s.tp.settings = some st) (serial asked least : Nat) :
    Acts s (s.authorizeOwn st serial asked least).1 := by
  unfold State.authorizeOwn
  split; · exact .refl s
  split; · exact .refl s
  · exact State.requestHold_acts hs _ _ _ _ _ _

/-! ### The end of a hold (R50, R53, R56) -/

theorem State.afterPeerEnd_acts (s : State) (st : Settings) (h : Hold) : Acts s (s.afterPeerEnd st h) :=
  .ite (s.formExposure_mild st _).acts (.refl s)

theorem State.releaseHold_acts (hs : s.tp.settings = some st) {h : Hold} (hh : h ∈ s.ht.holds) (isOpen : h.state = .held)
    {goal : HoldState} (hg : goal ≠ .held) : Acts s (s.releaseHold st h goal) := by
  refine (State.afterPeerEnd_acts _ st h).after (Act.endHold hs hh isOpen ?_ ?_).acts
  · exact ⟨fun _ => rfl, fun _ => rfl, fun _ => rfl, fun _ => hg⟩
  · exact ⟨fun _ => rfl, fun _ => rfl, fun _ => rfl, fun _ => rfl, fun _ => le_rfl, fun _ => Nat.sub_le _ _⟩

/-- The part before a capture of `x` from `h`, its trail entry made and its booking done but the records of card and hold
not yet changed (R53 step 3). -/
def State.bookedCapture (s : State) (st : Settings) (h : Hold) (room : List TrailEntry) (tag : Option Nat) (x : Nat) : State :=
  let s1 := s.trailMake room h.serial h.asker tag x
  let own := !(h.asker != st.station)
  { s1 with ct := { s1.ct with
      float := s1.ct.float - x,
      life := { s1.ct.life with captures := s1.ct.life.captures.acc x },
      openOwn := if own then { s1.ct.openOwn with u := s1.ct.openOwn.u.acc x } else s1.ct.openOwn } }.raiseSat
    (s1.ct.life.captures.accSat x || (own && s1.ct.openOwn.u.accSat x))

theorem State.captureHold_eq (s : State) (st : Settings) (h : Hold) (room : List TrailEntry) (tag : Option Nat) (x : Nat) :
    s.captureHold st h room tag x =
      let ended := ((s.bookedCapture st h room tag x).modCard h.serial fun c => c.capture x h.amount s.cc.openCycle).endHold
        st h fun h => h.capture tag x s.tr.nextNumber s.cc.openCycle
      if h.asker != st.station then ended.bookLiability st h.asker x else ended := rfl

theorem State.trailRoom_length {room : List TrailEntry} (h : s.trailRoom st = some room)
    (fits : s.tr.entries.length ≤ st.trailArea) : room.length < st.trailArea := by
  unfold State.trailRoom at h
  split at h
  next free => exact Option.some.inj h ▸ free
  split at h; · cases h
  next e rest he =>
  split at h; · cases h
  obtain rfl := Option.some.inj h
  rw [he, List.length_cons] at fits
  omega

/-- The Capture Trail may be rewritten by an enrolled part while it keeps to its area. -/
theorem State.trail_acts (hs : s.tp.settings = some st) {tr : Trail}
    (h : s.tr.entries.length ≤ st.trailArea → tr.entries.length ≤ st.trailArea) : Acts s { s with tr := tr } := by
  refine .bounded .trail (ps := [.trail]) (fun p hp => ?_) ⟨fun none => ?_, fun st' hst' => ?_⟩ (by decide)
  · cases p <;> simp_all [Part.same]
  · simp [hs] at none
  · obtain rfl := Option.some.inj (hs.symm.trans hst')
    exact h

theorem State.bookedCapture_acts (hs : s.tp.settings = some st) (h : Hold) {room : List TrailEntry}
    (hr : s.trailRoom st = some room) (tag : Option Nat) (x : Nat) : Acts s (s.bookedCapture st h room tag x) := by
  have made : Acts s (s.trailMake room h.serial h.asker tag x) := by
    refine State.trail_acts hs fun fits => ?_
    rw [List.length_append]
    exact State.trailRoom_length hr fits
  unfold State.bookedCapture
  exact (made.trans (State.money_acts _ _ _ _ Iff.rfl)).trans (State.raiseSat_mild _ _).acts

theorem State.captureHold_acts (hs : s.tp.settings = some st) {h : Hold} (hh : h ∈ s.ht.holds) (isOpen : h.state = .held)
    {room : List TrailEntry} (hr : s.trailRoom st = some room) (tag : Option Nat) {x : Nat} (hx : x ≤ h.amount) :
    Acts s (s.captureHold st h room tag x) := by
  have booked := State.bookedCapture_acts hs h hr tag x
  have ends : Hold.Ends fun h => h.capture tag x s.tr.nextNumber s.cc.openCycle :=
    ⟨fun _ => rfl, fun _ => rfl, fun _ => rfl, fun _ => nofun⟩
  have releases : Card.Releases h.amount fun c => c.capture x h.amount s.cc.openCycle :=
    ⟨fun _ => rfl, fun _ => rfl, fun _ => rfl, fun _ => rfl, fun c => Nat.sub_le _ _, fun c => Nat.sub_le_sub_left hx _⟩
  have ended := booked.trans (Act.endHold (s := s.bookedCapture st h room tag x) hs hh isOpen ends releases).acts
  rw [State.captureHold_eq]
  exact .ite (ended.trans (State.bookLiability_mild _ _ _ _).acts) ended

theorem State.captureOpen_acts (hs : s.tp.settings = some st) {h : Hold} (hh : h ∈ s.ht.holds) (isOpen : h.state = .held)
    (tag : Option Nat) (x : Nat) : Acts s (s.captureOpen st h tag x).1 := by
  unfold State.captureOpen
  split; · exact .refl s
  next fits =>
  split; · exact .refl s
  next room hr =>
  simp only [not_or, not_lt] at fits
  have kept : (s.captureHold st h room tag x).tp.settings = s.tp.settings :=
    s.captureHold_changes st h room tag x .settings (by decide)
  exact (State.captureHold_acts hs hh isOpen hr tag fits.2).trans (State.lapseIfDue_acts (kept.trans hs) _)

theorem State.matchHold_mem {id asker serial : Nat} {h : Hold} (hm : s.matchHold id asker serial = some h) :
    h ∈ s.ht.holds := List.mem_of_find?_eq_some hm

theorem State.serveTake_acts (hs : s.tp.settings = some st) (asker tag id serial x : Nat) :
    Acts s (s.serveTake st asker tag id serial x).1 := by
  unfold State.serveTake
  split
  next h hm =>
    split
    next isOpen => exact State.captureOpen_acts hs (State.matchHold_mem hm) isOpen _ _
    · split
      · exact State.lapseIfDue_acts hs serial
      · exact .refl s
    · exact .refl s
    · exact .refl s
  · split
    · exact State.lapseIfDue_acts hs serial
    · exact .refl s

theorem State.captureOwn_acts (hs : s.tp.settings = some st) (serial id x : Nat) :
    Acts s (s.captureOwn st serial id x).1 := by
  unfold State.captureOwn
  split; · exact .refl s
  next h hm =>
  split
  next isOpen => exact State.captureOpen_acts hs (State.matchHold_mem hm) isOpen _ _
  · exact .refl s

/-- A hold released and its card lapsed when that is due (R33, R50, R56). -/
theorem State.releaseAndLapse_acts (hs : s.tp.settings = some st) {h : Hold} (hh : h ∈ s.ht.holds) (isOpen : h.state = .held)
    {goal : HoldState} (hg : goal ≠ .held) (n : Nat) : Acts s ((s.releaseHold st h goal).lapseIfDue n) :=
  (State.releaseHold_acts hs hh isOpen hg).trans
    (State.lapseIfDue_acts ((s.releaseHold_changes st h goal .settings (by decide)).trans hs) n)

theorem State.freeHold_acts (hs : s.tp.settings = some st) (asker id serial : Nat) :
    Acts s (s.freeHold st asker id serial).1 := by
  unfold State.freeHold
  split; · exact .refl s
  next h hm =>
  split
  next isOpen => exact State.releaseAndLapse_acts hs (State.matchHold_mem hm) isOpen (goal := .freed) nofun serial
  · exact State.lapseIfDue_acts hs serial
  · exact State.lapseIfDue_acts hs serial
  · exact .refl s

theorem State.holdDeadline_acts (hs : s.tp.settings = some st) (id : Nat) : Acts s (s.holdDeadline st id) := by
  unfold State.holdDeadline
  split; · exact .refl s
  next h hf =>
  split
  next isOpen _ =>
    exact .ite (State.releaseAndLapse_acts hs (List.mem_of_find?_eq_some hf) isOpen (goal := .lapsed) nofun _) (.refl s)
  · exact .refl s

/-! ### Refunds (R68 to R73) -/

theorem State.modTrail_acts (hs : s.tp.settings = some st) (n : Nat) (f : TrailEntry → TrailEntry) :
    Acts s (s.modTrail n f) := State.trail_acts hs fun fits => by simpa using fits

theorem State.cardRefund_acts (hs : s.tp.settings = some st) {c : Card} (hc : c ∈ s.ct.cards) (open_ : c.state ≠ .closed)
    (live : c.state ≠ .lapsed) {f : Nat} (room : f ≤ st.cardCeiling - c.balance) (b : Bool) :
    Acts s (s.cardRefund c.serial f b) := by
  have refunded : Acts s (s.modCard c.serial fun c => c.refund f s.cc.openCycle) := by
    refine (Act.card hs hc ⟨rfl, rfl, rfl, fun fair => ?_⟩).acts
    have ceiling := fair.ceiling
    exact
      { held := fair.held.trans (Nat.le_add_right _ _), ceiling := (by change c.balance + f ≤ _; omega)
        unheld := fair.unheld, live := fair.live, ended := fun h => (h.elim open_ live).elim }
  unfold State.cardRefund
  exact (refunded.trans (State.money_acts _ _ _ _ Iff.rfl)).trans (State.raiseSat_mild _ _).acts

theorem State.applyRefund_acts (hs : s.tp.settings = some st) {c : Card} (hc : c ∈ s.ct.cards) (open_ : c.state ≠ .closed)
    (live : c.state ≠ .lapsed) {f : Nat} (room : f ≤ st.cardCeiling - c.balance) {e : TrailEntry} (he : e.serial = c.serial)
    (tag : Option Nat) : Acts s (s.applyRefund st e f tag) := by
  have refunded := (State.modTrail_acts hs e.number fun e => e.refund f tag s.cc.openCycle).trans
    (State.cardRefund_acts (s := s.modTrail e.number fun e => e.refund f tag s.cc.openCycle) hs hc open_ live room
      (!(e.redeemer != st.station)))
  rw [← he] at refunded
  exact .ite (refunded.trans (State.bookLiability_mild _ _ _ _).acts) refunded

theorem State.refundOn_acts (hs : s.tp.settings = some st) (e : TrailEntry) (f : Nat) (tag : Option Nat) :
    Acts s (s.refundOn st e f tag).1 := by
  unfold State.refundOn
  split; · exact .refl s
  split; · exact .refl s
  have lapsed := State.lapseIfDue_acts hs e.serial
  dsimp only
  split; · exact lapsed
  next c hc =>
  split; · exact lapsed
  split; · exact lapsed
  next open_ =>
  split; · exact lapsed
  next live =>
  split; · exact lapsed
  next room =>
  obtain ⟨mem, serial⟩ := State.findCard_mem hc
  exact lapsed.trans (State.applyRefund_acts ((s.lapseIfDue_settings _).trans hs) mem open_ live (not_lt.1 room)
    serial.symm tag)

theorem State.serveCredit_acts (hs : s.tp.settings = some st) (source tag serial number f : Nat) :
    Acts s (s.serveCredit st source tag serial number f).1 := by
  unfold State.serveCredit
  split; · exact .refl s
  split; · exact .refl s
  split; · exact .refl s
  split
  · split
    · exact State.lapseIfDue_acts hs serial
    · exact State.refundOn_acts hs _ _ _
  · exact State.refundOn_acts hs _ _ _

theorem State.refundOwn_acts (hs : s.tp.settings = some st) (serial number f : Nat) :
    Acts s (s.refundOwn st serial number f).1 := by
  unfold State.refundOwn
  split; · exact .refl s
  split; · exact .refl s
  split; · exact .refl s
  · exact State.refundOn_acts hs _ _ _

end Sys2Proof.Machine
end

section
/-! The acts of the Cycle Controller, the Statement Unit, the station and its transmitter, and the starts (chapters 5, 8, 9
and 12). -/

namespace Sys2Proof.Machine

variable {s : State} {st : Settings}

/-! ### Statements (R159 to R167) -/

theorem StatementUnit.place_nodup {su : StatementUnit} (h : (su.slots.map Slot.no).Nodup) (no : SlotNo) (x : Statement) :
    ((su.place no x).slots.map Slot.no).Nodup := by
  have kept : ((su.slots.filter fun y => y.no != no).map Slot.no).Nodup := h.sublist (List.filter_sublist.map _)
  have others : no ∉ (su.slots.filter fun y => y.no != no).map Slot.no := by simp [List.mem_map, List.mem_filter]
  simp only [StatementUnit.place, List.map_append, List.map_singleton]
  exact List.nodup_append.2 ⟨kept, by simp, by rintro a ha b hb rfl; exact others (List.mem_singleton.1 hb ▸ ha)⟩

/-- The Statement Unit of an enrolled part may be rewritten while its slots stay different. -/
theorem State.statements_acts (hs : s.tp.settings = some st) {su : StatementUnit}
    (h : (s.su.slots.map Slot.no).Nodup → (su.slots.map Slot.no).Nodup) : Acts s { s with su := su } := by
  refine .bounded .statements (ps := [.statements]) (fun p hp => ?_) ⟨fun none => ?_, h⟩ (by decide)
  · cases p <;> simp_all [Part.same]
  · simp [hs] at none

theorem State.report_acts (hs : s.tp.settings = some st) : Acts s (s.report st).1 := by
  unfold State.report
  split
  · exact State.statements_acts hs id
  · exact (State.statements_acts hs fun h => StatementUnit.place_nodup h _ _).trans (State.raiseSat_mild _ _).acts

theorem State.readStatement_acts (hs : s.tp.settings = some st) : Acts s (s.readStatement st).1 := by
  unfold State.readStatement
  split; · exact .refl s
  dsimp only
  split
  · exact State.statements_acts hs id
  · refine (State.statements_acts hs fun h => ?_).trans
      (Act.completeDeferred (s := { s with su := s.su.freeOldest }) hs).acts
    exact h.sublist ((List.tail_sublist _).map _)

/-! ### Closes and seals (R139 to R147) -/

theorem State.sealTimer_acts (s : State) (m : Option Moment) :
    Acts s { s with cc := { s.cc with sealTimer := m } } := by
  refine .bounded .cycles (ps := [.cycles]) (fun p hp => ?_) rfl (by decide)
  cases p <;> simp_all [Part.same]

theorem State.sweepStep_acts (hs : s.tp.settings = some st) : Acts s (s.sweepStep st) := by
  unfold State.sweepStep
  split; · exact .refl s
  next sweeps =>
  simp only [Bool.or_eq_true, bne_iff_ne, ne_eq, not_or, not_not, Bool.not_eq_true, Option.isNone_eq_false_iff,
    Option.isSome_iff_ne_none] at sweeps
  obtain ⟨sweeping, cursor⟩ := sweeps
  split
  · exact (Act.sweepEnd hs sweeping).acts
  next c hc =>
  have mem : c ∈ s.ct.cards := by
    unfold State.nextSwept at hc
    split at hc
    · cases hc
    · exact List.mem_of_find?_eq_some hc
  have kept := s.examine_changes st c
  have cursor' : (s.examine st c).ct.cursor = s.ct.cursor := kept .cursor (by decide)
  have cc' : (s.examine st c).cc = s.cc := kept .cycles (by decide)
  have hs' : (s.examine st c).tp.settings = some st := (kept .settings (by decide)).trans hs
  have moved := (State.examine_acts hs mem).trans (Act.cursor (cursor' ▸ cursor) c.serial).acts
  refine .ite (moved.trans (Act.sweepEnd (s := (s.examine st c).setCursor (some c.serial)) hs' ?_).acts) moved
  exact (congrArg Cycles.phase cc').trans sweeping

theorem State.windowExpiry_acts (hs : s.tp.settings = some st) : Acts s (s.windowExpiry st) := by
  unfold State.windowExpiry
  split; · exact .refl s
  split
  · have stopped := s.sealTimer_acts none
    dsimp only
    split
    next sealing =>
      refine stopped.trans (Act.makeSeal (s := { s with cc := { s.cc with sealTimer := none } }) hs (.inr ?_) false).acts
      exact fun h => Phase.noConfusion (sealing.symm.trans h)
    · exact stopped
  · exact .refl s

theorem State.sealDue_acts (hs : s.tp.settings = some st) : Acts s (s.sealDue st) := by
  unfold State.sealDue
  split
  next due =>
    simp only [Bool.and_eq_true, Option.isNone_iff_eq_none] at due
    exact (Act.makeSeal hs (.inl due.1.2) _).acts
  · exact .refl s

/-- A seal made with a later close pending, in SEALING (R142, R143). -/
theorem State.sealFor_acts (hs : s.tp.settings = some st) (h : s.cc.phase = .sealing) {x : Nat} (later : s.cc.openCycle < x)
    (forced : Bool) : Acts s ((s.keepTarget x).makeSeal st forced) := by
  have target : Act s (s.keepTarget x) := .target (by simp [h]) later
  refine target.acts.trans (Act.makeSeal (s := s.keepTarget x) hs (.inr ?_) forced).acts
  exact fun sweeping => Phase.noConfusion (h.symm.trans sweeping)

theorem State.catchUpCheck_acts (hs : s.tp.settings = some st) (x : Nat) : Acts s (s.catchUpCheck st x) := by
  unfold State.catchUpCheck
  split
  next later =>
    unfold State.catchUp
    split
    next steady => exact (Act.close hs steady later).acts
    next sweeping => exact (Act.target (by simp [sweeping]) later).acts
    next sealing => exact State.sealFor_acts hs sealing later _
    next deferred => exact (Act.target (by simp [deferred]) later).acts
  · exact .refl s

theorem State.closeDay_acts (hs : s.tp.settings = some st) : Acts s (s.closeDay st).1 := by
  have later := Nat.lt_succ_self s.cc.openCycle
  unfold State.closeDay
  dsimp only
  split; · exact .refl s
  split
  next steady => exact (Act.close hs steady later).acts
  next sweeping => exact (Act.target (by simp [sweeping]) later).acts
  next sealing =>
    split
    · exact State.sealFor_acts hs sealing later _
    · exact (Act.makeSeal hs (.inr (by simp [sealing])) _).acts
  next deferred => exact .refl s

/-! ### The rate schedule (R155) -/

theorem mem_stage {e x : Staged} {l : List Staged} (h : x ∈ stage e l) : x = e ∨ x ∈ l := by
  induction l with
  | nil => simpa [stage] using h
  | cons y l ih =>
    unfold stage at h
    split_ifs at h
    · simpa using h
    · simp only [List.mem_cons] at h ⊢
      exact h.imp_right .inr
    · simp only [List.mem_cons] at h ⊢
      rcases h with rfl | h
      · exact .inr (.inl rfl)
      · exact (ih h).imp_right .inr

theorem stage_sorted {e : Staged} {l : List Staged} (h : l.Pairwise (fun a b => a.effective < b.effective)) :
    (stage e l).Pairwise (fun a b => a.effective < b.effective) := by
  induction l with
  | nil => simp [stage]
  | cons y l ih =>
    obtain ⟨above, sorted⟩ := List.pairwise_cons.1 h
    unfold stage
    split_ifs with lt eq
    · refine List.pairwise_cons.2 ⟨fun x hx => ?_, h⟩
      rcases List.mem_cons.1 hx with rfl | hx
      · exact lt
      · exact lt.trans (above x hx)
    · exact List.pairwise_cons.2 ⟨fun x hx => eq ▸ above x hx, sorted⟩
    · refine List.pairwise_cons.2 ⟨fun x hx => ?_, ih sorted⟩
      rcases mem_stage hx with rfl | hx
      · omega
      · exact above x hx

theorem stage_length_le (e : Staged) (l : List Staged) : (stage e l).length ≤ l.length + 1 := by
  induction l with
  | nil => simp [stage]
  | cons y l ih =>
    unfold stage
    split_ifs <;> simp only [List.length_cons] <;> omega

theorem stage_length_of_staged {e : Staged} {l : List Staged} (h : l.Pairwise (fun a b => a.effective < b.effective))
    (staged : ∃ x ∈ l, x.effective = e.effective) : (stage e l).length = l.length := by
  induction l with
  | nil => simp at staged
  | cons y l ih =>
    obtain ⟨above, sorted⟩ := List.pairwise_cons.1 h
    obtain ⟨x, hx, same⟩ := staged
    unfold stage
    split_ifs with lt eq
    · rcases List.mem_cons.1 hx with rfl | hx
      · omega
      · have := above x hx
        omega
    · rfl
    · rcases List.mem_cons.1 hx with rfl | hx
      · exact absurd same.symm eq
      · rw [List.length_cons, List.length_cons, ih sorted ⟨x, hx, same⟩]

theorem State.setRate_acts (s : State) (rate fee effective : Nat) : Acts s (s.setRate rate fee effective).1 := by
  unfold State.setRate
  split; · exact .refl s
  split; · exact .refl s
  split; · exact .refl s
  next room =>
  refine (Act.stage fun ⟨two, sorted⟩ => ⟨?_, stage_sorted sorted⟩).acts
  by_cases full : 2 ≤ s.cc.schedule.length
  · have staged := of_not_not fun fresh => room ⟨full, fresh⟩
    simp only [List.any_eq_true, beq_iff_eq] at staged
    rw [stage_length_of_staged sorted staged]
    exact two
  · have := stage_length_le ⟨effective, ⟨rate, fee⟩⟩ s.cc.schedule
    omega

/-! ### The Link Controller as a whole (R77 to R95) -/

/-- The Link Controller may be rewritten while its queues keep to their room and the station does not leave OFFLINE
before enrolment. -/
theorem State.link_acts (s : State) {l : Link} {n : Nat}
    (station : l.station = .offline ∨ s.lc.station ≠ .offline ∨ s.tp.settings ≠ none)
    (answers : l.answerQ.length ≤ max 16 s.lc.answerQ.length)
    (requests : l.requestQ.length ≤ max 16 s.lc.requestQ.length) : Acts s { s with lc := l, draws := n } := by
  refine (Mild.of_changes (ps := [.station, .answers, .requests, .transmitter, .beacons, .wanted, .listen, .heldLink, .badFrames,
    .sendFailed, .answerDropped, .clash, .draws]) (fun p hp => ?_) ?_).acts
  · cases p <;> simp_all [Part.same]
  · simp only [List.forall_mem_cons]
    exact ⟨station, answers, requests, by simp [Part.mild]⟩

/-- A rewriting that leaves the station and the lengths of the queues. -/
theorem State.link_acts_of_same (s : State) {l : Link} (station : l.station = s.lc.station)
    (answers : l.answerQ.length = s.lc.answerQ.length) (requests : l.requestQ.length = s.lc.requestQ.length) :
    Acts s { s with lc := l } :=
  s.link_acts (n := s.draws) (by rw [station]; exact (em _).imp_right .inl) (answers ▸ le_max_right _ _)
    (requests ▸ le_max_right _ _)

theorem spendSlots_length (since gap now : Nat) (q : List QFrame) : (spendSlots since gap now q).length = q.length := by
  cases q <;> rfl

theorem Link.becomeBusy_station (l : Link) (now : Moment) : (l.becomeBusy now).station = l.station := by
  unfold Link.becomeBusy; split <;> rfl

theorem Link.becomeBusy_answerQ_length (l : Link) (now : Moment) :
    (l.becomeBusy now).answerQ.length = l.answerQ.length := by
  unfold Link.becomeBusy; split
  · exact spendSlots_length _ _ _ _
  · rfl

theorem Link.becomeBusy_requestQ_length (l : Link) (now : Moment) :
    (l.becomeBusy now).requestQ.length = l.requestQ.length := by
  unfold Link.becomeBusy; split
  · exact spendSlots_length _ _ _ _
  · rfl

theorem State.lineBusy_acts (s : State) : Acts s s.lineBusy :=
  s.link_acts_of_same (s.lc.becomeBusy_station _) (s.lc.becomeBusy_answerQ_length _) (s.lc.becomeBusy_requestQ_length _)

theorem State.startFrame_acts (s : State) (answer : Bool) (f : QFrame) : Acts s (s.startFrame answer f) :=
  s.link_acts_of_same (s.lc.becomeBusy_station _) (s.lc.becomeBusy_answerQ_length _) (s.lc.becomeBusy_requestQ_length _)

theorem State.startAnswer_acts (s : State) : Acts s s.startAnswer := by
  unfold State.startAnswer
  split
  · exact s.startFrame_acts true _
  · exact .refl s

theorem State.startRequest_acts (s : State) (st : Settings) : Acts s (s.startRequest st) := by
  unfold State.startRequest
  split
  · exact (s.startFrame_acts false _).trans (State.link_acts_of_same _ rfl rfl rfl)
  · exact .refl s

theorem State.spacingExpiry_acts (s : State) (st : Settings) : Acts s (s.spacingExpiry st) :=
  .ite (s.startRequest_acts st) (.refl s)

theorem State.stopDriving_acts (s : State) (m : Moment) : Acts s (s.stopDriving m) :=
  .free (s.stopDriving_changes m) (by decide)

theorem State.raiseSendFailed_acts (s : State) : Acts s s.raiseSendFailed :=
  .free s.raiseSendFailed_changes (by decide)

/-- A queue that has lost its head or had it rewritten, the Link Controller otherwise the same. -/
theorem State.answerQ_acts (s : State) {q : List QFrame} {n : Nat} (h : q.length ≤ s.lc.answerQ.length) :
    Acts s { s with lc := { s.lc with answerQ := q }, draws := n } :=
  s.link_acts ((em _).imp_right .inl) (h.trans (le_max_right _ _)) (le_max_right _ _)

theorem State.answerCollided_acts (s : State) : Acts s s.answerCollided := by
  unfold State.answerCollided
  split; · exact .refl s
  next f rest hq =>
  split
  · exact (s.answerQ_acts (n := s.draws) (by simp [hq])).trans (State.raiseSendFailed_acts _)
  · exact s.answerQ_acts (by simp [hq])

theorem State.reportDiscard_acts (s : State) (f : Frame) : Acts s (s.reportDiscard f) := by
  unfold State.reportDiscard
  split
  · exact (s.askTally_mild _).acts
  · exact (s.askCheck_mild _).acts
  · exact .refl s
  · exact (s.reportFrame_mild _ _).acts

theorem State.reportSent_acts (s : State) (f : Frame) (m : Moment) : Acts s (s.reportSent f m) := by
  unfold State.reportSent
  split
  · exact Mild.acts (s.modPeer_mild _ fun _ => rfl)
  · exact .refl s
  · exact .refl s
  · exact (s.reportFrame_mild _ _).acts

theorem State.requestCollided_acts (s : State) : Acts s s.requestCollided := by
  unfold State.requestCollided
  split; · exact .refl s
  next f rest hq =>
  split
  · have dropped : Acts s (s.setRequestQ rest) := (s.setRequestQ_mild (by rw [hq, List.length_cons]; omega)).acts
    exact ((dropped.trans (State.raiseSendFailed_acts _)).trans (State.reportDiscard_acts _ _)).trans
      (State.fillRequests_mild _).acts
  · exact (s.setRequestQ_mild (by rw [hq]; exact le_max_right _ _)).acts

theorem State.requestSent_acts (s : State) (m : Moment) : Acts s (s.requestSent m) := by
  unfold State.requestSent
  split; · exact .refl s
  next f rest hq =>
  have left : Acts s (s.setRequestQ rest) := (s.setRequestQ_mild (by rw [hq, List.length_cons]; omega)).acts
  exact (left.trans (State.reportSent_acts _ _ _)).trans (State.fillRequests_mild _).acts

theorem State.collide_acts (s : State) : Acts s s.collide := by
  unfold State.collide
  split; · exact .refl s
  split
  · have stopped := s.stopDriving_acts s.now
    exact .ite (stopped.trans (State.answerCollided_acts _)) (stopped.trans (State.requestCollided_acts _))
  · exact .refl s

theorem State.answerSent_acts (s : State) : Acts s s.answerSent :=
  s.answerQ_acts (n := s.draws) (by simp)

theorem State.frameSent_acts (s : State) : Acts s s.frameSent := by
  unfold State.frameSent
  split; · exact .refl s
  next answer bytes start _ =>
  split
  · have stopped := s.stopDriving_acts (lastTransition bytes start)
    exact .ite (stopped.trans (State.answerSent_acts _)) (stopped.trans (State.requestSent_acts _ _))
  · exact .refl s

theorem State.beaconTime_acts (s : State) : Acts s s.beaconTime := by
  unfold State.beaconTime
  split
  · exact .ite (s.beaconDue_mild _).acts (.refl s)
  · exact .refl s

/-! ### Station states (R90 to R95) -/

theorem State.withdraw_acts (h : s.lc.station ≠ .offline) : Acts s s.withdraw := by
  have left : Acts s { s with lc := s.lc.withdraw s.now } :=
    s.link_acts (n := s.draws) (.inr (.inl h)) (Nat.zero_le _) (Nat.zero_le _)
  exact ((left.trans (State.setAsideAll_mild _).acts).trans (State.forgetPresence_mild _).acts).trans (State.fillResults_mild _).acts

theorem State.clashFound_acts (s : State) : Acts s s.clashFound := by
  have shown (s : State) : Acts s { s with lc := { s.lc with clash := true } } := s.link_acts_of_same rfl rfl rfl
  have withdrawn (h : s.lc.station ≠ .offline) :
      Acts s (({ s.withdraw with lc := { s.withdraw.lc with clash := true } } : State).linkResult .clash) :=
    ((State.withdraw_acts h).trans (shown _)).trans (State.linkResult_mild _ _).acts
  unfold State.clashFound
  split
  · have left : Acts s { s with lc := { s.lc with station := .offline, listenEnd := none, badFrames := [], clash := true } } :=
      s.link_acts (n := s.draws) (.inl rfl) (le_max_right _ _) (le_max_right _ _)
    exact (left.trans (State.forgetPresence_mild _).acts).trans (State.linkResult_mild _ _).acts
  next active => exact withdrawn (by simp [active])
  next draining => exact withdrawn (by simp [draining])
  · exact .refl s

theorem State.drainTest_acts (s : State) : Acts s s.drainTest := by
  unfold State.drainTest
  split
  next done =>
    simp only [Bool.and_eq_true, beq_iff_eq] at done
    exact (State.withdraw_acts (by simp [done.1])).trans (State.linkResult_mild _ _).acts
  · exact .refl s

theorem State.join_acts (hs : s.tp.settings ≠ none) : Acts s s.join.1 := by
  have joined : Acts s { s with lc := { s.lc with
      station := .listening, listenEnd := some (s.now + Config.listenSpan), clash := false } } :=
    s.link_acts (n := s.draws) (.inr (.inr hs)) (le_max_right _ _) (le_max_right _ _)
  unfold State.join
  split
  · exact joined
  · exact joined
  · exact .refl s

theorem State.drain_acts (s : State) : Acts s s.drain.1 := by
  unfold State.drain
  split
  next active =>
    refine Acts.trans ?_ (State.drainTest_acts _)
    exact s.link_acts (n := s.draws) (.inr (.inl (by simp [active]))) (le_max_right _ _) (le_max_right _ _)
  · exact .refl s
  · exact .refl s

theorem State.leave_acts (s : State) : Acts s s.leave.1 := by
  unfold State.leave
  split
  next listening => exact State.withdraw_acts (by simp [listening])
  next active => exact State.withdraw_acts (by simp [active])
  next draining => exact State.withdraw_acts (by simp [draining])
  · exact .refl s

theorem State.listenOver_acts (s : State) : Acts s s.listenOver := by
  unfold State.listenOver
  split
  next listening _ =>
    refine .ite ?_ (.refl s)
    refine ((Acts.trans ?_ (State.beaconDue_mild _ _).acts).trans (State.askOwedAll_mild _).acts).trans (State.linkResult_mild _ _).acts
    exact s.link_acts (n := s.draws) (.inr (.inl (by simp [listening]))) (le_max_right _ _) (le_max_right _ _)
  · exact .refl s

/-! ### Starts (R187, R188) -/

theorem State.warmBlocks_acts (s : State) : Acts s s.warmBlocks := by
  have peers : s.warmBlocks.pt.map PeerEntry.sealKey = s.pt.map PeerEntry.sealKey := by
    change (s.pt.map PeerEntry.warm).map PeerEntry.sealKey = _
    rw [List.map_map]
    exact List.map_congr_left fun _ _ => rfl
  refine (Mild.of_changes (ps := [.port, .station, .answers, .requests, .transmitter, .beacons, .wanted, .listen, .heldLink,
    .badFrames, .sendFailed, .answerDropped, .clash, .peers, .statements, .latched]) (fun p hp => ?_) ?_).acts
  · cases p <;> simp_all [Part.same, State.warmBlocks, Port.warm, Monitor.warm]
  · simp only [List.forall_mem_cons]
    exact ⟨Nat.zero_le _, .inl rfl, Nat.zero_le _, Nat.zero_le _, trivial, trivial, trivial, trivial, trivial, trivial, trivial,
      trivial, trivial, peers, ⟨fun _ h => h, fun h => h⟩, trivial, by simp⟩

theorem State.warmStart_acts (s : State) : Acts s s.warmStart := by
  have blocks := s.warmBlocks_acts
  cases hs : s.tp.settings with
  | none => rw [State.warmStart_unenrolled hs]; exact blocks
  | some st =>
    rw [State.warmStart_enrolled hs]
    have tables : Acts s (s.warmTables st) :=
      (blocks.trans (Act.restart _ _).acts).trans (State.sealTimer_acts _ _)
    exact ((tables.trans (State.setAsideAll_mild _).acts).trans (State.fillResults_mild _).acts).trans (State.formExposures_mild _ st).acts

theorem State.powerUp_acts (s : State) : Acts s s.powerUp := by
  have risen : Acts s { s with power := true } := by
    refine .free (ps := [.power]) (fun p hp => ?_) (by decide)
    cases p <;> simp_all [Part.same]
  exact .ite (risen.trans (State.warmStart_acts _)) (risen.trans (Act.cold _).acts)

end Sys2Proof.Machine
end

section
/-! Every step is a sequence of acts: frames heard, till commands, transfers and events. -/

namespace Sys2Proof.Machine

variable {s : State} {st : Settings}

/-! ### Frames heard (R85 to R88) -/

theorem State.handOver_acts (hs : s.tp.settings = some st) (h : Header) (b : Body) : Acts s (s.handOver st h b) := by
  have enrolled : s.tp.settings ≠ none := by simp [hs]
  cases b with
  | ask => exact (State.serveAsk_acts hs _ _ _ _ _ _).trans (State.answerTo_mild _ _ _ _).acts
  | take => exact (State.serveTake_acts hs _ _ _ _ _).trans (State.answerTo_mild _ _ _ _).acts
  | free => exact (State.freeHold_acts hs _ _ _).trans (State.answerTo_mild _ _ _ _).acts
  | credit => exact (State.serveCredit_acts hs _ _ _ _ _).trans (State.answerTo_mild _ _ _ _).acts
  | tally => exact (s.onTally_mild _ _).acts
  | check => exact (s.onCheck_mild _).acts
  | beacon => exact (s.onBeacon_mild _).acts
  | grant | taken | freed | credited | refuse => exact State.serveAnswer_acts enrolled _ _ _

theorem State.readBody_acts (hs : s.tp.settings = some st) (h : Header) (x : RxBody) : Acts s (s.readBody st h x) := by
  unfold State.readBody
  split
  · exact State.handOver_acts hs h _
  · have faulted := (s.protocolFault_mild h.source).acts
    exact .ite (faulted.trans (State.answerTo_mild _ _ _ _).acts) faulted

theorem State.onHeader_acts (hs : s.tp.settings = some st) (h : Header) : Acts s (s.onHeader st h) := by
  have hs' : (s.hearPeer h).tp.settings = some st := (s.hearPeer_changes h .settings (by decide)).trans hs
  exact ((s.hearPeer_mild h).acts.trans (State.catchUpCheck_acts hs' _)).trans (relatch_mild _).acts

theorem State.onReadable_acts (hs : s.tp.settings = some st) (h : Header) (x : RxBody) : Acts s (s.onReadable st h x) := by
  have hs' : (s.onHeader st h).tp.settings = some st := (s.onHeader_changes st h .settings (by decide)).trans hs
  have heard := State.onHeader_acts hs h
  unfold State.onReadable
  refine .ite s.clashFound_acts ?_
  exact .ite ((heard.trans (State.readBody_acts hs' h x)).trans (State.drainTest_acts _))
    (heard.trans (State.drainTest_acts _))

theorem whenEnrolled_acts (s : State) {f : Settings → State} (h : ∀ st, s.tp.settings = some st → Acts s (f st)) :
    Acts s (whenEnrolled s f) := by
  unfold whenEnrolled
  split
  next st hs => exact h st hs
  · exact .refl s

theorem State.hearGood_acts (s : State) (h : RxHeader) (x : RxBody) : Acts s (s.hearGood h x) := by
  refine whenEnrolled_acts s fun st hs => ?_
  split
  · split
    · exact State.onReadable_acts hs _ x
    · exact .refl s
  · exact .refl s

theorem State.hearBits_acts (s : State) (bits : List Bool) : Acts s (s.hearBits bits) := by
  have counted : Acts s (if s.lc.receives then s.countBad else s) :=
    .ite (.free s.countBad_changes (by decide)) (.refl s)
  unfold State.hearBits
  split
  · exact s.hearGood_acts _ _
  · exact .refl s
  · exact counted
  · exact counted

/-! ### Till commands (R180) -/

theorem enrolled_acts {f : Settings → Effect} (h : ∀ st, s.tp.settings = some st → Acts s (f st s).1) :
    Acts s (enrolled f s).1 := by
  unfold enrolled
  split
  · exact .refl s
  next st hs => exact h st hs

theorem ownCard_acts {ref : RefField} {f : Settings → Nat → Effect}
    (h : ∀ st n, s.tp.settings = some st → Acts s (f st n s).1) : Acts s (ownCard ref f s).1 := by
  refine enrolled_acts fun st hs => withRef_ind (.refl s) fun c => ?_
  split
  · exact h st c.serial hs
  · exact .refl s

theorem withPeer_acts {peer : BitVec 8} {f : Settings → Nat → Effect} (h : ∀ st n, Acts s (f st n s).1) :
    Acts s (withPeer peer f s).1 := by
  refine enrolled_acts fun st _ => ?_
  split
  · exact .refl s
  · exact h st _

theorem cmdEnrol_acts (f : EnrolFields) (s : State) : Acts s (cmdEnrol f s).1 := by
  unfold cmdEnrol
  split; · exact .refl s
  next hs =>
  split; · exact .refl s
  next st hf => exact (Act.enrol hs hf).acts

theorem State.readResult_acts (s : State) : Acts s s.readResult.1 := by
  unfold State.readResult
  split; · exact .refl s
  next r rest hr =>
  have left : Acts s { s with tp := { s.tp with results := rest } } := by
    refine .bounded .results (ps := [.results]) (fun p hp => ?_) ?_ (by decide)
    · cases p <;> simp_all [Part.same]
    · change rest.length ≤ _
      rw [hr, List.length_cons]
      omega
  exact left.trans (State.fillResults_mild _).acts

theorem cmdAdjust_acts (peer : BitVec 8) (dR dL : AmountField) (s : State) : Acts s (cmdAdjust peer dR dL s).1 := by
  refine withPeer_acts fun _ p => ?_
  split
  · exact (s.adjust_mild p _ _).acts
  · exact .refl s

theorem State.wipe_acts (s : State) : Acts s s.wipe.1 := by
  cases h : s.wipeRefusal with
  | some k => rw [State.wipe_refused h]; exact .refl s
  | none => rw [State.wipe_done h]; exact (Act.cold s).acts

theorem runCommand_acts (token : Token) (c : Command) (s : State) : Acts s (runCommand token c s).1 := by
  have stay := Acts.refl s
  have foreign {st : Settings} (hs : s.tp.settings = some st) (p : ExParams) (home serial : Nat) :
      Acts s (s.openExchange p home serial token).1 := State.openExchange_acts (by simp [hs]) p home serial token
  cases c with
  | enrol f => exact cmdEnrol_acts f s
  | join => exact enrolled_acts fun st hs => State.join_acts (by simp [hs])
  | drain => exact enrolled_acts fun _ _ => s.drain_acts
  | leave => exact enrolled_acts fun _ _ => s.leave_acts
  | issue a v =>
    exact withCycle_ind stay fun v => enrolled_acts fun st hs => withAmount_ind stay fun a => State.issue_acts hs a v
  | load r a =>
    refine enrolled_acts fun st hs => withRef_ind stay fun c => withAmount_ind stay fun a => ?_
    split
    · exact State.load_acts hs _ _
    · exact stay
  | cashout r => exact ownCard_acts fun _ n hs => State.cashout_acts hs n
  | freeze r => exact ownCard_acts fun _ n hs => State.setFrozen_acts hs n (.inr rfl)
  | thaw r => exact ownCard_acts fun _ n hs => State.setFrozen_acts hs n (.inl rfl)
  | enquire r =>
    refine enrolled_acts fun st hs => withRef_ind stay fun c => ?_
    split
    · exact State.enquireOwn_acts hs _
    · exact foreign hs _ _ _
  | authorize r a l =>
    refine enrolled_acts fun st hs => withRef_ind stay fun c => withAmount_ind stay fun a => withAmount_ind stay fun l => ?_
    split; · exact stay
    split
    · exact State.authorizeOwn_acts hs _ _ _
    · exact foreign hs _ _ _
  | capture r i a =>
    refine enrolled_acts fun st hs => withRef_ind stay fun c => withAmount_ind stay fun a => ?_
    split
    · exact State.captureOwn_acts hs _ _ _
    · exact foreign hs _ _ _
  | void r i =>
    refine enrolled_acts fun st hs => withRef_ind stay fun c => ?_
    split
    · exact State.freeHold_acts hs _ _ _
    · exact foreign hs _ _ _
  | refund r n a =>
    refine withTrail_ind stay fun n => enrolled_acts fun st hs => withRef_ind stay fun c => withAmount_ind stay fun a => ?_
    split
    · exact State.refundOwn_acts hs _ _ _
    · exact foreign hs _ _ _
  | closeDay => exact enrolled_acts fun st hs => State.closeDay_acts hs
  | report => exact enrolled_acts fun st hs => State.report_acts hs
  | setRate r f e => exact withCycle_ind stay fun e => enrolled_acts fun _ _ => s.setRate_acts _ _ e
  | readStatement => exact enrolled_acts fun st hs => State.readStatement_acts hs
  | readResult => exact enrolled_acts fun _ _ => s.readResult_acts
  | peerStatus p => exact withPeer_acts fun _ _ => stay
  | clearPeer p => exact withPeer_acts fun _ p => (s.clearPeer_mild p).acts
  | adjust p r l => exact cmdAdjust_acts p r l s
  | status => exact stay
  | clearMonitor x => exact .free (cmdClearMonitor_changes x s) (by decide)
  | restart => exact s.warmStart_acts
  | wipe => exact s.wipe_acts

/-! ### Transfers of the terminal port (R179) -/

/-- The port may be rewritten while its busy count keeps to its bound. -/
theorem State.port_acts {t : State} {ps : List Part} (h : ChangesOnly ps s t) (busy : t.tp.busy ≤ max 255 s.tp.busy)
    (hp : ∀ p ∈ ps, p ∈ freeParts ∨ p = .port) : Acts s t := .bounded .port h busy hp

theorem State.write_acts {run : Effect} (h : ∀ s, Acts s (run s).1) (token : Token) (s : State) :
    Acts s (State.write token run s) := by
  refine Acts.trans (.free (s.shiftOut_changes [s.stateByte]) (by decide)) ?_
  refine .ite ((h _).trans ?_) ?_
  · exact State.port_acts (State.respond_changes _ _ _) (le_max_right _ _) (by decide)
  · exact State.port_acts (State.countBusy_changes _) ((min_le_left _ _).trans (le_max_left _ _)) (by decide)

theorem write_command_acts (token : Token) (c : Command) (s : State) :
    Acts s (State.write token (runCommand token c) s) := State.write_acts (runCommand_acts token c) token s

theorem runBlock_acts (block : List Byte) (s : State) : Acts s (runBlock block s).1 := by
  unfold runBlock
  cases parseBlock block with
  | some c => exact runCommand_acts _ c s
  | none => exact .refl s

theorem State.read_busy (s : State) (n : Nat) : (s.read n).tp.busy ≤ s.tp.busy := by
  unfold State.read
  split
  · dsimp only
    split
    · exact Nat.zero_le _
    · exact le_rfl
  · exact le_rfl

theorem State.transfer_acts (s : State) (mosi : List Byte) : Acts s (s.transfer mosi) := by
  have shifted (bytes : List Byte) : Acts s (s.shiftOut bytes) := .free (s.shiftOut_changes bytes) (by decide)
  unfold State.transfer
  split
  · exact shifted _
  · refine .ite (State.write_acts (runBlock_acts _) _ s) (.ite ?_ (shifted _))
    exact State.port_acts (s.read_changes _) ((s.read_busy _).trans (le_max_right _ _)) (by decide)

/-! ### Every command -/

theorem work_acts (i : Instr) (s : State) : Acts s (work i s) := by
  cases i with
  | enrol _ token f => exact write_command_acts token (.enrol f) s
  | join _ token => exact write_command_acts token .join s
  | drain _ token => exact write_command_acts token .drain s
  | leave _ token => exact write_command_acts token .leave s
  | issue _ token a v => exact write_command_acts token (.issue a v) s
  | load _ token r a => exact write_command_acts token (.load r a) s
  | cashout _ token r => exact write_command_acts token (.cashout r) s
  | freeze _ token r => exact write_command_acts token (.freeze r) s
  | thaw _ token r => exact write_command_acts token (.thaw r) s
  | enquire _ token r => exact write_command_acts token (.enquire r) s
  | authorize _ token r a l => exact write_command_acts token (.authorize r a l) s
  | capture _ token r i a => exact write_command_acts token (.capture r i a) s
  | void _ token r i => exact write_command_acts token (.void r i) s
  | refund _ token r n a => exact write_command_acts token (.refund r n a) s
  | closeDay _ token => exact write_command_acts token .closeDay s
  | report _ token => exact write_command_acts token .report s
  | setRate _ token r f e => exact write_command_acts token (.setRate r f e) s
  | readStatement _ token => exact write_command_acts token .readStatement s
  | readResult _ token => exact write_command_acts token .readResult s
  | peerStatus _ token p => exact write_command_acts token (.peerStatus p) s
  | clearPeer _ token p => exact write_command_acts token (.clearPeer p) s
  | adjust _ token p r l => exact write_command_acts token (.adjust p r l) s
  | status _ token => exact write_command_acts token .status s
  | clearMonitor _ token x => exact write_command_acts token (.clearMonitor x) s
  | restart _ token => exact write_command_acts token .restart s
  | wipe _ token => exact write_command_acts token .wipe s
  | malformedBlock | writeRefusedBusy | responseRead => exact s.transfer_acts _
  | askReceived | takeReceived | freeReceived | creditReceived | grantReceived | takenReceived | freedReceived
  | creditedReceived | refuseReceived | tallyReceived | checkReceived | beaconReceived | frameClash | malformedFrame
  | unreadableHeader | headerOnlyFrame => exact s.hearGood_acts _ _
  | badFrame | fragment => exact s.hearBits_acts _
  | lineIdle => exact .free s.lineIdle_changes (by decide)
  | lineBusy => exact s.lineBusy_acts
  | answerStart => exact s.startAnswer_acts
  | requestStart => exact whenEnrolled_acts s fun st _ => s.startRequest_acts st
  | spacingExpiry => exact whenEnrolled_acts s fun st _ => s.spacingExpiry_acts st
  | collision => exact s.collide_acts.trans (State.drainTest_acts _)
  | frameSent => exact s.frameSent_acts.trans (State.drainTest_acts _)
  | requestQueueFill => exact (s.fillRequests_mild).acts
  | beaconTime => exact s.beaconTime_acts
  | listenEnd => exact s.listenOver_acts
  | sendFailedExpiry => exact .free s.sendFailedExpiry_changes (by decide)
  | answerDroppedExpiry => exact .free s.answerDroppedExpiry_changes (by decide)
  | linkNoiseExpiry => exact .free s.noiseExpiry_changes (by decide)
  | drainComplete => exact s.drainTest_acts
  | replyTimeout => exact (s.replyTimeout_mild _).acts.trans (State.drainTest_acts _)
  | resultQueueFill => exact (s.fillResults_mild).acts
  | pendingClose => exact whenEnrolled_acts s fun st hs => (Act.pendingClose hs).acts
  | sweepStep => exact whenEnrolled_acts s fun st hs => State.sweepStep_acts hs
  | sealWindowExpiry => exact whenEnrolled_acts s fun st hs => State.windowExpiry_acts hs
  | makeSeal => exact whenEnrolled_acts s fun st hs => State.sealDue_acts hs
  | deferredSealCompletion => exact whenEnrolled_acts s fun st hs => (Act.completeDeferred hs).acts
  | holdDeadline => exact (whenEnrolled_acts s fun st hs => State.holdDeadline_acts hs _).trans (State.drainTest_acts _)
  | peerAbsentTimeout => exact (s.peerAbsent_mild _).acts
  | nrst => exact .ite s.warmStart_acts (.refl s)
  | powerLoss => exact .free s.powerDown_changes (by decide)
  | coldStart | warmStart | retentionLoss => exact .refl s

theorem exec_acts (i : Instr) {s t : State} (h : exec i s = .next t) : Acts s t := by
  have clock : Acts s (s.atMoment i.moment) := .free (s.atMoment_changes _) (by decide)
  have ended (u : State) : Acts u (finish u) := .free (finish_changes u) (by decide)
  rcases exec_cases i s with e | e | e <;> obtain rfl := Host.Outcome.next.inj (e.symm.trans h)
  · exact (clock.trans (.ite (work_acts i _) (.refl _))).trans (ended _)
  · exact Acts.trans (.ite clock (clock.trans (State.powerUp_acts _))) (ended _)
  · exact (clock.trans (.free (State.loseRetention_changes _) (by decide))).trans (ended _)

theorem step_acts {s t : State} (h : step s = .next t) : Acts s t := by
  unfold step at h
  split at h
  · obtain rfl := Host.Outcome.next.inj h
    exact .refl _
  next c rest hp =>
    refine Acts.trans (.free (ps := [.queue]) (fun p hm => ?_) (by decide)) (exec_acts c h)
    cases p <;> simp_all [Part.same]

/-- What every act keeps, every step keeps. -/
theorem step_keeps {P : State → Prop} (act : ∀ {s t}, Act s t → P s → P t) {s t : State} (hs : P s)
    (h : step s = .next t) : P t := (step_acts h).keeps act hs

end Sys2Proof.Machine
end

section
/-! The sealing set stays whole (R34, R124, R137 to R139, R143): what each act keeps of it. -/

namespace Sys2Proof.Machine

/-! ### The invariant in two parts -/

/-- The sealing totals stand with the sealing set, its number lies below the open cycle and a pending target above it. -/
structure SealsSound (s : State) : Prop where
  own : s.ct.sealOwn = none ↔ s.cc.sealing = none
  peers : ∀ e ∈ s.pt, e.sealF = none ↔ s.cc.sealing = none ∨ e.peer = s.own
  below : ∀ x, s.cc.sealing = some x → x.cycle < s.cc.openCycle
  later : ∀ u, s.cc.pendingTarget = some u → s.cc.openCycle < u

/-- Phase, cursor and pending target go with the sealing set. -/
structure PhaseSound (s : State) : Prop where
  steady : s.cc.phase = .steady ↔ s.cc.sealing = none
  sweeping : s.ct.cursor ≠ none ↔ s.cc.phase = .sweeping
  target : s.cc.phase = .steady → s.cc.pendingTarget = none
  fresh : s.tp.settings = none → s.cc.phase = .steady

theorem sealingWhole_iff (s : State) : sealingWhole s ↔ SealsSound s ∧ PhaseSound s :=
  ⟨fun ⟨steady, own, peers, below, sweeping, later, target, fresh⟩ =>
    ⟨⟨own, peers, below, later⟩, ⟨steady, sweeping, target, fresh⟩⟩,
   fun ⟨⟨own, peers, below, later⟩, ⟨steady, sweeping, target, fresh⟩⟩ =>
    ⟨steady, own, peers, below, sweeping, later, target, fresh⟩⟩

variable {s t : State} {st : Settings}

theorem State.own_of_settings (hs : s.tp.settings = some st) : s.own = st.station := by
  unfold State.own
  rw [hs]

/-- The entries' part of the invariant depends on their numbers and on where sealing figures stand alone. -/
theorem sealFigures_of_keys (same : t.pt.map PeerEntry.sealKey = s.pt.map PeerEntry.sealKey) {p : Nat → Prop}
    (h : ∀ e ∈ s.pt, e.sealF = none ↔ p e.peer) : ∀ e ∈ t.pt, e.sealF = none ↔ p e.peer := by
  intro e he
  have key : e.sealKey ∈ s.pt.map PeerEntry.sealKey := same ▸ List.mem_map_of_mem he
  obtain ⟨d, hd, hkey⟩ := List.mem_map.1 key
  obtain ⟨number, figures⟩ := Prod.mk.inj hkey
  rw [← Option.isNone_iff_eq_none, ← figures, ← number, Option.isNone_iff_eq_none]
  exact h d hd

/-- What the invariant reads of a state is the same: the settings, the cycles but for timer, rate and schedule, the
cursor, and where sealing figures and totals stand. -/
theorem sealingWhole_of_same (h : sealingWhole s) (settings : t.tp.settings = s.tp.settings)
    (cycles : (t.cc.phase, t.cc.sealing, t.cc.openCycle, t.cc.pendingTarget) =
      (s.cc.phase, s.cc.sealing, s.cc.openCycle, s.cc.pendingTarget))
    (cursor : t.ct.cursor = s.ct.cursor) (money : t.ct.sealOwn = none ↔ s.ct.sealOwn = none)
    (peers : t.pt.map PeerEntry.sealKey = s.pt.map PeerEntry.sealKey) : sealingWhole t := by
  obtain ⟨phase, sealing, cycle, target⟩ : t.cc.phase = s.cc.phase ∧ t.cc.sealing = s.cc.sealing ∧
      t.cc.openCycle = s.cc.openCycle ∧ t.cc.pendingTarget = s.cc.pendingTarget := by simpa using cycles
  have number : t.own = s.own := by simp only [State.own, settings]
  obtain ⟨sound, order⟩ := (sealingWhole_iff s).1 h
  refine (sealingWhole_iff t).2 ⟨⟨?_, ?_, ?_, ?_⟩, ⟨?_, ?_, ?_, ?_⟩⟩
  · rw [money, sealing]; exact sound.own
  · rw [sealing, number]
    exact sealFigures_of_keys (p := fun n => s.cc.sealing = none ∨ n = s.own) peers sound.peers
  · rw [sealing, cycle]; exact sound.below
  · rw [target, cycle]; exact sound.later
  · rw [phase, sealing]; exact order.steady
  · rw [cursor, phase]; exact order.sweeping
  · rw [phase, target]; exact order.target
  · rw [settings, phase]; exact order.fresh

/-- A change that touches nothing the invariant reads. -/
theorem sealingWhole.of_changes {ps : List Part} (whole : sealingWhole s) (h : ChangesOnly ps s t)
    (hp : ∀ p ∈ [Part.settings, .cycles, .cursor, .money, .peers], p ∉ ps) : sealingWhole t := by
  simp only [List.forall_mem_cons] at hp
  obtain ⟨settings, cycles, cursor, money, peers, -⟩ := hp
  have cc : t.cc = s.cc := h .cycles cycles
  have pt : t.pt = s.pt := h .peers peers
  have sealOwn : t.ct.sealOwn = s.ct.sealOwn := congrArg (fun m => m.2.2.2) (h .money money)
  exact sealingWhole_of_same whole (h .settings settings) (by rw [cc]) (h .cursor cursor) (by rw [sealOwn]) (by rw [pt])

theorem State.granted_changes (s : State) (st : Settings) (asker : Nat) (askTag : Option Nat) (serial asked least g : Nat) :
    ChangesOnly [.cards, .holds] s (s.granted st asker askTag serial asked least g) := by
  unfold State.granted
  dsimp only
  split <;> (intro p hp; cases p <;> simp_all [Part.same])

theorem State.endsHold_changes (s : State) (st : Settings) (n : Nat) (g : Card → Card) (h : Hold) (f : Hold → Hold) :
    ChangesOnly [.cards, .holds] s ((s.modCard n g).endHold st h f) :=
  (s.modCard_changes n g).comp (State.endHold_changes _ st h f) (by decide) (by decide)

/-! ### Closes (R144) -/

/-- A close leaves SWEEPING with the cursor at 0, or SEALING without a cursor when there is no record to sweep (R34, R139). -/
theorem State.closeAt_phase (s : State) (st : Settings) (x : Nat) :
    ((s.closeAt st x).ct.cursor = some 0 ∧ (s.closeAt st x).cc.phase = .sweeping) ∨
      ((s.closeAt st x).ct.cursor = none ∧ (s.closeAt st x).cc.phase = .sealing) := by
  rw [State.closeAt_eq]
  by_cases h : ((s.closing st x).formExposures st).ct.cards = []
  · rw [State.sweepOfNothing_none h]
    exact .inr ⟨rfl, rfl⟩
  · rw [State.sweepOfNothing_cards h]
    exact .inl ⟨rfl, rfl⟩

theorem State.closeAt_sealOwn (s : State) (st : Settings) (x : Nat) : (s.closeAt st x).ct.sealOwn = some s.ct.openOwn := by
  obtain ⟨-, -, -, same⟩ := ((s.closing st x).formExposures st).sweepOfNothing_money
  exact same

theorem State.closeAt_settings (s : State) (st : Settings) (x : Nat) :
    (s.closeAt st x).tp.settings = s.tp.settings := s.closeAt_changes st x .settings (by decide)

theorem SealsSound.closeAt (h : SealsSound s) (hs : s.tp.settings = some st) (none : s.cc.sealing = none) {x : Nat}
    (later : s.cc.openCycle < x) : sealingWhole (s.closeAt st x) := by
  have settings := (s.closeAt_settings st x).trans hs
  have own := State.own_of_settings settings
  obtain ⟨p, cc⟩ := s.closeAt_cc st x
  have sealing : (s.closeAt st x).cc.sealing = some ⟨s.cc.openCycle, s.cc.active.getD ⟨0, 0⟩, false⟩ := by rw [cc]; rfl
  have cycle : (s.closeAt st x).cc.openCycle = x := by rw [cc]; rfl
  have target : (s.closeAt st x).cc.pendingTarget = .none := by rw [cc]; rfl
  refine (sealingWhole_iff _).2 ⟨⟨?_, ?_, ?_, ?_⟩, ⟨?_, ?_, ?_, ?_⟩⟩
  · simp [sealing, State.closeAt_sealOwn]
  · intro e he
    rw [State.closeAt_pt] at he
    obtain ⟨d, hd, rfl⟩ := List.mem_map.1 he
    have absent : d.sealF = .none := (h.peers d hd).2 (.inl none)
    rw [sealing, own]
    by_cases mine : d.peer = st.station
    · simpa [mine, PeerEntry.withExposure] using absent
    · simp [mine, PeerEntry.withExposure, PeerEntry.close]
  · rintro y hy
    obtain rfl := Option.some.inj (sealing.symm.trans hy)
    rw [cycle]
    exact later
  · simp [target]
  · rcases s.closeAt_phase st x with ⟨-, phase⟩ | ⟨-, phase⟩ <;> simp [phase, sealing]
  · rcases s.closeAt_phase st x with ⟨cursor, phase⟩ | ⟨cursor, phase⟩ <;> simp [phase, cursor]
  · exact fun _ => target
  · intro unenrolled
    rw [settings] at unenrolled
    cases unenrolled

/-! ### Seals (R146 to R148) -/

theorem State.completeSeal_keeps (s : State) (st : Settings) (x : SealingSet) (no : SlotNo) :
    (s.completeSeal st x no).tp.settings = s.tp.settings ∧ (s.completeSeal st x no).ct.cursor = s.ct.cursor ∧
      (s.completeSeal st x no).cc = s.cc.sealed ∧ (s.completeSeal st x no).ct.sealOwn = none ∧
      (s.completeSeal st x no).pt = (s.sealRetested st x no).pt := by
  have asked := s.completeSeal_fill st x no
  have retested := s.sealRetested_changes st x no
  have money := asked .money (by decide)
  exact ⟨(asked .settings (by decide)).trans (retested .settings (by decide)),
    (asked .cursor (by decide)).trans (retested .cursor (by decide)), asked .cycles (by decide),
    congrArg (fun m => m.2.2.2) money, asked .peers (by decide)⟩

theorem PeerEntry.retestTally_sealKey (e : PeerEntry) (cc : Cycles) : (e.retestTally cc).sealKey = e.sealKey := by
  unfold PeerEntry.retestTally
  split
  · rfl
  · split <;> rfl

theorem SealsSound.completeSeal (h : SealsSound s) (hs : s.tp.settings = some st) (x : SealingSet) (no : SlotNo) :
    SealsSound (s.completeSeal st x no) := by
  obtain ⟨settings, -, cc, sealOwn, pt⟩ := s.completeSeal_keeps st x no
  have sealing : (s.completeSeal st x no).cc.sealing = none := by rw [cc]; rfl
  refine ⟨by simp [sealing, sealOwn], fun e he => ?_, by simp [sealing], ?_⟩
  · rw [pt, State.sealRetested_pt] at he
    obtain ⟨d, hd, rfl⟩ := List.mem_map.1 he
    simp only [sealing, true_or, iff_true]
    by_cases mine : d.peer = st.station
    · rw [if_pos mine]
      exact (h.peers d hd).2 (.inr (mine.trans (State.own_of_settings hs).symm))
    · rw [if_neg mine]
      have key := ((d.sealAt x.cycle).withExposure st (s.heldSum d.peer)).retestTally_sealKey s.cc.sealed
      exact Option.isNone_iff_eq_none.1 (Prod.mk.inj key).2
  · rw [cc]
    exact h.later

/-- A pending close is made when no sealing set stands; else nothing happens (R143). -/
theorem SealsSound.pendingClose (h : SealsSound s) (hs : s.tp.settings = some st)
    (steady : s.cc.phase = .steady ↔ s.cc.sealing = none) (sweeping : s.ct.cursor ≠ none ↔ s.cc.phase = .sweeping) :
    sealingWhole (s.pendingClose st) := by
  have stays (target : s.cc.phase = .steady → s.cc.pendingTarget = none) : sealingWhole s :=
    (sealingWhole_iff s).2 ⟨h, ⟨steady, sweeping, target, fun unenrolled => by simp [hs] at unenrolled⟩⟩
  unfold State.pendingClose
  split
  next u phase target => exact h.closeAt hs (steady.1 phase) (h.later u target)
  next none => exact stays fun phase => Option.eq_none_iff_forall_not_mem.2 fun u hu => none u phase hu

/-- A completed seal with the close that may follow (R143, R148). -/
theorem SealsSound.sealThenClose (h : SealsSound s) (hs : s.tp.settings = some st) (cursor : s.ct.cursor = none)
    (x : SealingSet) (no : SlotNo) : sealingWhole ((s.completeSeal st x no).pendingClose st) := by
  obtain ⟨settings, cursor', cc, -, -⟩ := s.completeSeal_keeps st x no
  have absent := cursor'.trans cursor
  refine (h.completeSeal hs x no).pendingClose (settings.trans hs) ?_ ?_
  · simp [cc, Cycles.sealed]
  · simp [cc, Cycles.sealed, absent]

theorem State.makeSeal_of_none (h : s.cc.sealing = none) (forced : Bool) : s.makeSeal st forced = s := by
  simp only [State.makeSeal, h]

/-- A seal asked for once the sweep has ended: it completes, or the phase becomes DEFERRED (R146). -/
theorem SealsSound.makeSeal (h : SealsSound s) (hs : s.tp.settings = some st) (stands : s.cc.sealing ≠ none)
    (cursor : s.ct.cursor = none) (forced : Bool) : sealingWhole (s.makeSeal st forced) := by
  obtain ⟨x, hx⟩ := Option.ne_none_iff_exists'.1 stands
  have numbered : SealsSound { s with cc := { s.cc with sealing := some { x with forced := forced }, sealTimer := none } } := by
    refine ⟨?_, fun e he => ?_, ?_, h.later⟩
    · simpa [hx] using h.own
    · simpa [State.own, hs, hx] using h.peers e he
    · rintro _ ⟨⟩
      exact h.below x hx
  unfold State.makeSeal
  split
  next none => exact absurd none stands
  next y hy =>
  obtain rfl := Option.some.inj (hx.symm.trans hy)
  dsimp only
  split
  · exact numbered.sealThenClose hs cursor _ _
  · refine (sealingWhole_iff _).2 ⟨⟨numbered.own, numbered.peers, numbered.below, numbered.later⟩, ⟨?_, ?_, ?_, ?_⟩⟩
    · simp
    · simp [cursor]
    · simp
    · simp [hs]

/-! ### Every act -/

theorem SealsSound.sweepEnd (h : SealsSound s) (hs : s.tp.settings = some st) (stands : s.cc.sealing ≠ none) :
    sealingWhole (s.sweepEnd st) := by
  have ended : SealsSound (s.setCursor none) := ⟨h.own, h.peers, h.below, h.later⟩
  unfold State.sweepEnd
  dsimp only
  split
  · exact ended.makeSeal hs stands rfl _
  · refine (sealingWhole_iff _).2 ⟨⟨h.own, h.peers, h.below, h.later⟩, ⟨?_, ?_, ?_, ?_⟩⟩
    · simpa using stands
    · simp [State.setCursor]
    · simp
    · simp [hs]

theorem Cycles.keepTarget_later (cc : Cycles) {x : Nat} (later : cc.openCycle < x) :
    ∀ u, (cc.keepTarget x).pendingTarget = some u → cc.openCycle < u := by
  intro u hu
  unfold Cycles.keepTarget at hu
  obtain rfl := Option.some.inj hu
  split
  · exact later.trans_le (le_max_right _ _)
  · exact later

theorem sealingWhole.cold (s : State) : sealingWhole s.coldStart := by
  refine ⟨iff_of_true rfl rfl, iff_of_true rfl rfl, fun e he => ?_, nofun, iff_of_false (· rfl) nofun, nofun,
    fun _ => rfl, fun _ => rfl⟩
  obtain ⟨p, -, rfl⟩ := List.mem_map.1 he
  exact iff_of_true rfl (.inl rfl)

theorem Act.keeps_sealingWhole {s t : State} (h : Act s t) (whole : sealingWhole s) : sealingWhole t := by
  obtain ⟨sound, order⟩ := (sealingWhole_iff s).1 whole
  cases h with
  | mild h =>
    have cycles : t.cc = { s.cc with sealTimer := t.cc.sealTimer } := h .cycles
    exact sealingWhole_of_same whole (h .settings) (by rw [cycles]) (h .cursor) (h .money) (h .peers)
  | card | issue | purge | restart | addExchange | stage => exact sealingWhole_of_same whole rfl rfl rfl Iff.rfl rfl
  | grant _ _ _ _ _ cell asker askTag asked least =>
    exact whole.of_changes ((State.takeCell_changes _ _ _ cell).comp (State.granted_changes _ _ _ _ _ _ _ _)
      (rs := [.cards, .holds]) (by decide) (by decide)) (by decide)
  | endHold => exact whole.of_changes (State.endsHold_changes _ _ _ _ _ _) (by decide)
  | cursor stands k =>
    refine (sealingWhole_iff _).2 ⟨⟨sound.own, sound.peers, sound.below, sound.later⟩,
      ⟨order.steady, ?_, order.target, order.fresh⟩⟩
    have sweeping := order.sweeping.1 stands
    simp [State.setCursor, sweeping]
  | sweepEnd hs sweeping => exact sound.sweepEnd hs fun none => by simp [order.steady.2 none] at sweeping
  | target running later =>
    exact (sealingWhole_iff _).2 ⟨⟨sound.own, sound.peers, sound.below, s.cc.keepTarget_later later⟩,
      ⟨order.steady, order.sweeping, fun steady => absurd steady running, order.fresh⟩⟩
  | close hs steady later => exact sound.closeAt hs (order.steady.1 steady) later
  | pendingClose hs => exact sound.pendingClose hs order.steady order.sweeping
  | makeSeal hs ended forced =>
    by_cases stands : s.cc.sealing = none
    · rwa [State.makeSeal_of_none stands]
    · have cursor : s.ct.cursor = none := ended.elim id fun h => of_not_not fun present => h (order.sweeping.1 present)
      exact sound.makeSeal hs stands cursor forced
  | completeDeferred hs =>
    unfold State.completeDeferred
    split
    next x no deferred _ _ =>
      refine sound.sealThenClose hs ?_ x no
      exact of_not_not fun present => by simp [order.sweeping.1 present] at deferred
    · exact whole
  | enrol hs _ =>
    have steady := order.fresh hs
    have none := order.steady.1 steady
    refine (sealingWhole_iff _).2 ⟨⟨sound.own, fun e he => ?_, sound.below, sound.later⟩,
      ⟨order.steady, order.sweeping, order.target, fun _ => steady⟩⟩
    have absent : e.sealF = .none := (sound.peers e he).2 (.inl none)
    exact iff_of_true absent (.inl none)
  | cold => exact .cold _

/-- Settles O58: every act of a step keeps the sealing set whole; closes and seals, which move it, are taken as whole
acts. -/
theorem sealingSetStaysWhole : Obligations.SealingSetStaysWhole := fun _ _ whole h =>
  step_keeps Act.keeps_sealingWhole whole h

end Sys2Proof.Machine
end

section
/-! Queues, lists and tables stay within their room (R17, R63, R83, R84, R101, R102, R155, R159, R179, R182, R184): what each
act keeps of it, part by part. -/

namespace Sys2Proof.Machine

/-! ### Numbers around a ring (R41, R102) -/

theorem nextInRing_mem {hi n : Nat} (h : 1 ≤ n) (hn : n ≤ hi) : 1 ≤ nextInRing hi n ∧ nextInRing hi n ≤ hi := by
  unfold nextInRing
  split <;> omega

theorem nextInRing_iterate {hi n : Nat} (h : 1 ≤ n) (hn : n ≤ hi) (k : Nat) :
    (nextInRing hi)^[k] n = (n - 1 + k) % hi + 1 := by
  induction k with
  | zero => rw [Function.iterate_zero_apply, Nat.add_zero, Nat.mod_eq_of_lt (by omega)]; omega
  | succ k ih =>
    have cut := Nat.div_add_mod (n - 1 + k) hi
    have low := Nat.mod_lt (n - 1 + k) (by omega : 0 < hi)
    have next : n - 1 + (k + 1) = (n - 1 + k) % hi + 1 + hi * ((n - 1 + k) / hi) := by omega
    rw [Function.iterate_succ_apply', ih, nextInRing, next, Nat.add_mul_mod_self_left]
    by_cases last : (n - 1 + k) % hi + 1 = hi
    · rw [if_pos last, last, Nat.mod_self]
    · rw [if_neg last, Nat.mod_eq_of_lt (a := (n - 1 + k) % hi + 1) (by omega)]

theorem firstFree_mem {hi : Nat} {taken : List Nat} (fuel : Nat) :
    ∀ {n : Nat}, 1 ≤ n → n ≤ hi → 1 ≤ firstFree hi taken fuel n ∧ firstFree hi taken fuel n ≤ hi := by
  induction fuel with
  | zero => exact fun h hn => ⟨h, hn⟩
  | succ fuel ih =>
    intro n h hn
    obtain ⟨low, high⟩ := nextInRing_mem h hn
    unfold firstFree
    split
    · exact ih low high
    · exact ⟨h, hn⟩

/-- The search ends at a free number, or every number it tried is taken. -/
theorem firstFree_free_or (hi : Nat) (taken : List Nat) (fuel : Nat) :
    ∀ n, firstFree hi taken fuel n ∉ taken ∨ ∀ k < fuel, (nextInRing hi)^[k] n ∈ taken := by
  induction fuel with
  | zero => exact fun n => .inr fun k hk => absurd hk (Nat.not_lt_zero k)
  | succ fuel ih =>
    intro n
    unfold firstFree
    split
    next here =>
      refine (ih (nextInRing hi n)).imp_right fun all k hk => ?_
      cases k with
      | zero => exact here
      | succ k => exact all k (Nat.lt_of_succ_lt_succ hk)
    next free => exact .inl free

/-- A search of one number more than are taken finds a free one, the ring being large enough (R41, R102). -/
theorem firstFree_not_mem {hi n : Nat} {taken : List Nat} (h : 1 ≤ n) (hn : n ≤ hi) (room : taken.length < hi) :
    firstFree hi taken (taken.length + 1) n ∉ taken := by
  refine (firstFree_free_or hi taken _ n).resolve_right fun all => ?_
  have inj : Set.InjOn (fun k => (nextInRing hi)^[k] n) (Finset.range (taken.length + 1)) := by
    intro i hi' j hj same
    simp only [Finset.coe_range, Set.mem_Iio] at hi' hj
    simp only [nextInRing_iterate h hn, Nat.add_right_cancel_iff] at same
    have same : n - 1 + i ≡ n - 1 + j [MOD hi] := same
    exact Nat.ModEq.eq_of_lt_of_lt (Nat.ModEq.add_left_cancel' _ same) (by omega) (by omega)
  have few := Finset.card_le_card_of_injOn (t := taken.toFinset) _
    (fun k hk => List.mem_toFinset.2 (all k (Finset.mem_range.1 hk))) inj
  rw [Finset.card_range] at few
  exact absurd (few.trans taken.toFinset_card_le) (by omega)

/-! ### The invariant part by part -/

/-- The Exchange Table keeps to its room, its tags are all different and the tag counter in its range (R101, R102). -/
structure ExchangeTable.Roomy (x : ExchangeTable) : Prop where
  exchanges : x.exchanges.length ≤ 32
  ended : x.ended.length ≤ 64
  tags : (x.exchanges.map Exchange.tag).Nodup
  next : 1 ≤ x.nextTag ∧ x.nextTag ≤ Config.idMax

/-- The room of each part, and that a part that is not enrolled holds nothing in it. -/
def Part.room : Part → State → Prop
  | .answers, s => s.lc.answerQ.length ≤ 16
  | .requests, s => s.lc.requestQ.length ≤ 16
  | .exchanges, s => s.xt.Roomy ∧ (s.tp.settings = none → s.xt.exchanges = [])
  | .results, s => s.tp.results.length ≤ 32
  | .port, s => s.tp.busy ≤ 255
  | .cycles, s => schedules s.cc.schedule
  | .statements, s => (s.su.slots.map Slot.no).Nodup ∧ (s.tp.settings = none → s.su.slots = [])
  | .cards, s =>
    (∀ st, s.tp.settings = some st → s.ct.cards.length ≤ st.cardArea) ∧ (s.tp.settings = none → s.ct.cards = [])
  | .holds, s => s.tp.settings = none → s.ht.holds = []
  | .trail, s =>
    (∀ st, s.tp.settings = some st → s.tr.entries.length ≤ st.trailArea) ∧ (s.tp.settings = none → s.tr.entries = [])
  | .station, s => s.tp.settings = none → s.lc.station = .offline
  | _, _ => True

/-- Every part keeps to its room. -/
def Roomy (s : State) : Prop := ∀ p : Part, p.room s

theorem withinRoom_iff (s : State) : withinRoom s ↔ Roomy s := by
  constructor
  · rintro ⟨answers, requests, exchanges, ended, results, busy, two, tags, low, high, sorted, slots, area, empty⟩ p
    cases p with
    | answers => exact answers
    | requests => exact requests
    | exchanges => exact ⟨⟨exchanges, ended, tags, low, high⟩, fun none => (empty none).2.2.2.1⟩
    | results => exact results
    | port => exact busy
    | cycles => exact ⟨two, sorted⟩
    | statements => exact ⟨slots, fun none => (empty none).2.2.2.2.1⟩
    | cards => exact ⟨fun st hs => (area st hs).1, fun none => (empty none).1⟩
    | holds => exact fun none => (empty none).2.1
    | trail => exact ⟨fun st hs => (area st hs).2, fun none => (empty none).2.2.1⟩
    | station => exact fun none => (empty none).2.2.2.2.2
    | _ => trivial
  · intro h
    obtain ⟨⟨exchanges, ended, tags, low, high⟩, noExchange⟩ := h .exchanges
    obtain ⟨two, sorted⟩ := h .cycles
    obtain ⟨slots, noSlot⟩ := h .statements
    obtain ⟨cards, noCard⟩ := h .cards
    obtain ⟨trail, noEntry⟩ := h .trail
    exact ⟨h .answers, h .requests, exchanges, ended, h .results, h .port, two, tags, low, high, sorted, slots,
      fun st hs => ⟨cards st hs, trail st hs⟩,
      fun none => ⟨noCard none, h .holds none, noEntry none, noExchange none, noSlot none, h .station none⟩⟩

variable {s t : State} {st : Settings}

theorem Part.room_of_mild {p : Part} (settings : t.tp.settings = s.tp.settings) (h : p.mild s t) (room : p.room s) :
    p.room t := by
  cases p with
  | answers | requests | results | port =>
    simp only [Part.mild, Part.room] at h room ⊢
    omega
  | exchanges =>
    obtain ⟨tags, ended, next⟩ := h
    obtain ⟨roomy, empty⟩ := room
    have fewer := tags.length_le
    rw [List.length_map, List.length_map] at fewer
    refine ⟨⟨fewer.trans roomy.exchanges, ?_, roomy.tags.sublist tags, next ▸ roomy.next⟩, fun none => ?_⟩
    · have := roomy.ended
      omega
    · rw [empty (settings ▸ none)] at fewer
      exact List.eq_nil_of_length_eq_zero (Nat.le_zero.1 fewer)
  | cycles =>
    have same : t.cc = { s.cc with sealTimer := t.cc.sealTimer } := h
    rw [Part.room, same]
    exact room
  | statements =>
    obtain ⟨empty, nodup⟩ := h
    exact ⟨nodup room.1, fun none => empty (settings ▸ none) (room.2 (settings ▸ none))⟩
  | cards =>
    have same : t.ct.cards = s.ct.cards := h
    rw [Part.room, settings, same]
    exact room
  | holds =>
    have same : t.ht = s.ht := h
    rw [Part.room, settings, same]
    exact room
  | trail =>
    obtain ⟨empty, area⟩ := h
    rw [Part.room, settings]
    exact ⟨fun st hs => area st hs (room.1 st hs), fun none => empty none (room.2 none)⟩
  | station =>
    intro none
    rw [settings] at none
    rcases h with h | h | h
    · exact h
    · exact absurd (room none) h
    · exact absurd none h
  | _ => trivial

theorem Roomy.mild (room : Roomy s) (h : Mild s t) : Roomy t := fun p => Part.room_of_mild (h .settings) (h p) (room p)

/-- A change to a few parts, each of which keeps to its room. -/
theorem Roomy.of_changes {ps : List Part} (room : Roomy s) (h : ChangesOnly ps s t)
    (settings : t.tp.settings = s.tp.settings) (changed : ∀ p ∈ ps, p.room t) : Roomy t := fun p =>
  if hp : p ∈ ps then changed p hp else Part.room_of_mild settings (Part.mild_of_same (h p hp)) (room p)

/-! ### Closes and seals -/

theorem schedules.filter {l : List Staged} (h : schedules l) (f : Staged → Bool) : schedules (l.filter f) :=
  ⟨(List.length_filter_le f l).trans h.1, h.2.sublist List.filter_sublist⟩

theorem Roomy.closeAt (room : Roomy s) (st : Settings) (x : Nat) : Roomy (s.closeAt st x) := by
  refine room.of_changes (s.closeAt_changes st x) (s.closeAt_settings st x) ?_
  obtain ⟨p, cc⟩ := s.closeAt_cc st x
  have kept : schedules (s.closeAt st x).cc.schedule := by
    rw [cc]
    exact schedules.filter (room .cycles) _
  simp only [closeParts, List.forall_mem_cons]
  exact ⟨trivial, trivial, trivial, trivial, kept, trivial, by simp⟩

theorem Roomy.completeSeal (room : Roomy s) (hs : s.tp.settings = some st) (x : SealingSet) (no : SlotNo) :
    Roomy (s.completeSeal st x no) := by
  have retested := s.sealRetested_changes st x no
  have settings : (s.sealRetested st x no).tp.settings = s.tp.settings := retested .settings (by decide)
  have asked : Mild (s.sealRetested st x no) (s.completeSeal st x no) := State.askTallies_mild _ st
  refine Roomy.mild (room.of_changes retested settings ?_) asked
  have slots : ((s.sealRetested st x no).su.slots.map Slot.no).Nodup :=
    StatementUnit.place_nodup (room .statements).1 no _
  have enrolled : (s.sealRetested st x no).tp.settings = none → (s.sealRetested st x no).su.slots = [] := by
    simp [settings, hs]
  have schedule : schedules (s.sealRetested st x no).cc.schedule := room .cycles
  simp only [List.forall_mem_cons]
  exact ⟨⟨slots, enrolled⟩, trivial, trivial, trivial, schedule, trivial, by simp⟩

theorem Roomy.pendingClose (room : Roomy s) (st : Settings) : Roomy (s.pendingClose st) := by
  unfold State.pendingClose
  split
  · exact room.closeAt st _
  · exact room

theorem Roomy.sealThenClose (room : Roomy s) (hs : s.tp.settings = some st) (x : SealingSet) (no : SlotNo) :
    Roomy ((s.completeSeal st x no).pendingClose st) := (room.completeSeal hs x no).pendingClose st

/-- The Cycle Controller may be rewritten while its schedule keeps to its room. -/
theorem Roomy.cycles (room : Roomy s) {cc : Cycles} (h : schedules s.cc.schedule → schedules cc.schedule) :
    Roomy { s with cc := cc } := by
  refine room.of_changes (ps := [.cycles]) (fun p hp => ?_) rfl ?_
  · cases p <;> simp_all [Part.same]
  · exact List.forall_mem_singleton.2 (h (room .cycles))

theorem Roomy.makeSeal (room : Roomy s) (hs : s.tp.settings = some st) (forced : Bool) : Roomy (s.makeSeal st forced) := by
  unfold State.makeSeal
  split
  · exact room
  next x _ =>
    have numbered : Roomy { s with cc := { s.cc with sealing := some { x with forced := forced }, sealTimer := none } } :=
      room.cycles id
    dsimp only
    split
    · exact numbered.sealThenClose hs _ _
    · exact numbered.cycles id

theorem Roomy.setCursor (room : Roomy s) (k : Option Nat) : Roomy (s.setCursor k) :=
  room.of_changes (s.setCursor_changes k) rfl (by simp [Part.room])

/-! ### Every act -/

/-- The Card Table and the Hold Table of an enrolled part may be rewritten while the cards keep to their area. -/
theorem Roomy.tables (room : Roomy s) (hs : s.tp.settings = some st) (h : ChangesOnly [.cards, .serials, .holds] s t)
    (cards : s.ct.cards.length ≤ st.cardArea → t.ct.cards.length ≤ st.cardArea) : Roomy t := by
  have settings : t.tp.settings = s.tp.settings := h .settings (by decide)
  have enrolled := settings.trans hs
  refine room.of_changes h settings ?_
  simp only [List.forall_mem_cons, Part.room, enrolled]
  refine ⟨⟨?_, nofun⟩, trivial, nofun, by simp⟩
  rintro _ ⟨⟩
  exact cards ((room .cards).1 st hs)

theorem State.granted_cards_length (s : State) (st : Settings) (asker : Nat) (askTag : Option Nat)
    (serial asked least g : Nat) : (s.granted st asker askTag serial asked least g).ct.cards.length = s.ct.cards.length := by
  unfold State.granted
  dsimp only
  split <;> simp

/-- A new exchange takes a tag that no other has (R102). -/
theorem ExchangeTable.Roomy.addExchange {x : ExchangeTable} (h : x.Roomy) (room : x.exchanges.length < 32) {e : Exchange}
    (tag : e.tag = x.newTag) :
    ExchangeTable.Roomy { x with exchanges := x.exchanges ++ [e], nextTag := nextInRing Config.idMax x.newTag } := by
  obtain ⟨low, high⟩ := h.next
  have taken : x.takenTags.length < Config.idMax := by
    have := h.ended
    simp only [ExchangeTable.takenTags, List.length_append, List.length_map, Config.idMax]
    omega
  have fresh : x.newTag ∉ x.exchanges.map Exchange.tag := fun mem =>
    firstFree_not_mem low high taken (List.mem_append_left _ mem)
  obtain ⟨low', high'⟩ := firstFree_mem (taken := x.takenTags) (x.takenTags.length + 1) low high
  refine ⟨?_, h.ended, ?_, nextInRing_mem low' high'⟩
  · simp only [List.length_append, List.length_singleton]
    omega
  · simp only [List.map_append, List.map_singleton, tag]
    exact List.nodup_append.2 ⟨h.tags, by simp, by rintro a ha b hb rfl; exact fresh (List.mem_singleton.1 hb ▸ ha)⟩

theorem withinRoom.cold (s : State) : withinRoom s.coldStart := by
  refine ⟨Nat.zero_le _, Nat.zero_le _, Nat.zero_le _, Nat.zero_le _, Nat.zero_le _, Nat.zero_le _, Nat.zero_le _, .nil,
    le_rfl, (by decide : 1 ≤ Config.idMax), .nil, .nil, nofun, fun _ => ⟨rfl, rfl, rfl, rfl, rfl, rfl⟩⟩

theorem Act.keeps_roomy {s t : State} (h : Act s t) (room : Roomy s) : Roomy t := by
  cases h with
  | mild h => exact room.mild h
  | card hs => exact room.tables hs ((s.modCard_changes _ _).mono (by decide)) (by simp)
  | issue hs free =>
    refine room.tables hs (fun p hp => ?_) fun _ => ?_
    · cases p <;> simp_all [Part.same]
    · simp only [List.length_append, List.length_singleton]
      omega
  | purge =>
    refine room.of_changes (ps := [.cards]) (fun p hp => ?_) rfl (List.forall_mem_singleton.2 ⟨fun st hs => ?_, fun none => ?_⟩)
    · cases p <;> simp_all [Part.same]
    · exact (List.length_filter_le _ _).trans ((room .cards).1 st hs)
    · simp [(room .cards).2 none]
  | grant hs _ _ _ _ cell =>
    have taken := State.takeCell_changes _ _ _ cell
    refine room.tables hs (taken.comp (State.granted_changes _ _ _ _ _ _ _ _) (by decide) (by decide)) fun fits => ?_
    rwa [State.granted_cards_length, show (_ : State).ct.cards = s.ct.cards from taken .cards (by decide)]
  | endHold hs =>
    have ended := State.endHold_changes
    refine room.tables hs ((State.endsHold_changes _ _ _ _ _ _).mono (by decide)) fun fits => ?_
    rw [show (State.endHold _ _ _ _).ct.cards = (State.modCard s _ _).ct.cards from ended _ _ _ _ .cards (by decide)]
    simpa using fits
  | restart =>
    refine room.of_changes (ps := [.holds]) (fun p hp => ?_) rfl (List.forall_mem_singleton.2 fun none => ?_)
    · cases p <;> simp_all [Part.same]
    · exact List.map_eq_nil_iff.2 (room .holds none)
  | addExchange hs free =>
    refine room.of_changes (State.addExchange_changes _ _ _ _ _) rfl (List.forall_mem_singleton.2 ⟨?_, fun none => absurd none hs⟩)
    exact (room .exchanges).1.addExchange free rfl
  | stage h => exact room.cycles h
  | cursor _ k => exact room.setCursor _
  | sweepEnd hs =>
    unfold State.sweepEnd
    dsimp only
    split
    · exact (room.setCursor none).makeSeal hs _
    · exact (room.setCursor none).cycles id
  | target => exact room.cycles id
  | close => exact room.closeAt _ _
  | pendingClose => exact room.pendingClose _
  | makeSeal hs _ forced => exact room.makeSeal hs forced
  | completeDeferred hs =>
    unfold State.completeDeferred
    split
    · exact room.sealThenClose hs _ _
    · exact room
  | enrol hs _ =>
    intro p
    cases p with
    | cards => exact ⟨fun st _ => by simp [State.applySettings, (room .cards).2 hs], nofun⟩
    | trail => exact ⟨fun st _ => by simp [State.applySettings, (room .trail).2 hs], nofun⟩
    | exchanges => exact ⟨(room .exchanges).1, nofun⟩
    | statements => exact ⟨(room .statements).1, nofun⟩
    | cycles => exact ⟨Nat.zero_le _, .nil⟩
    | holds | station => exact nofun
    | answers => exact room .answers
    | requests => exact room .requests
    | results => exact room .results
    | port => exact room .port
    | _ => trivial
  | cold => exact (withinRoom_iff _).1 (.cold _)

/-- Settles O59: every act of a step keeps each part to its room; a new tag is free because the ring of tags is longer
than the exchanges and the ended list together. -/
theorem roomIsKept : Obligations.RoomIsKept := fun s s' room h =>
  (withinRoom_iff s').2 (step_keeps Act.keeps_roomy ((withinRoom_iff s).1 room) h)

end Sys2Proof.Machine
end

section
/-! The Card Table and the Hold Table stay in agreement (R16, R17, R21, R39 to R42): what each act keeps of it. -/

namespace Sys2Proof.Machine

/-! ### OPEN records of a list -/

/-- The OPEN records of a list that a test picks. -/
def openOf (l : List Hold) (p : Hold → Bool) : List Hold := l.filter fun h => h.state == .held && p h

theorem openHolds_eq (s : State) (p : Hold → Bool) : openHolds s p = openOf s.ht.holds p := rfl

theorem mem_openOf {l : List Hold} {p : Hold → Bool} {h : Hold} : h ∈ openOf l p ↔ h ∈ l ∧ h.state = .held ∧ p h = true := by
  simp [openOf]

/-- `m` has the OPEN record `h` and otherwise the OPEN records of `l`. -/
structure Opened (h : Hold) (l m : List Hold) : Prop where
  count : ∀ p, (openOf m p).length = (openOf l p).length + if p h then 1 else 0
  sum : ∀ p, ((openOf m p).map Hold.amount).sum = ((openOf l p).map Hold.amount).sum + if p h then h.amount else 0
  mem : ∀ x, x ∈ openOf m (fun _ => true) ↔ x ∈ openOf l (fun _ => true) ∨ x = h

/-- A record that leaves OPEN where it stands. -/
theorem Opened.of_split {pre post : List Hold} {h d : Hold} (isOpen : h.state = .held) (ended : d.state ≠ .held) :
    Opened h (pre ++ d :: post) (pre ++ h :: post) where
  count p := by
    by_cases hp : p h = true <;> simp [openOf, isOpen, ended, hp]
    omega
  sum p := by
    by_cases hp : p h = true <;> simp [openOf, isOpen, ended, hp]
    omega
  mem x := by
    simp only [mem_openOf, List.mem_append, List.mem_cons, and_true]
    constructor
    · rintro ⟨h1 | rfl | h1, held⟩
      · exact .inl ⟨.inl h1, held⟩
      · exact .inr rfl
      · exact .inl ⟨.inr (.inr h1), held⟩
    · rintro (⟨h1 | rfl | h1, held⟩ | rfl)
      · exact ⟨.inl h1, held⟩
      · exact absurd held ended
      · exact ⟨.inr (.inr h1), held⟩
      · exact ⟨.inr (.inl rfl), isOpen⟩

/-- A new OPEN record at the tail. -/
theorem Opened.of_append {l : List Hold} {h : Hold} (isOpen : h.state = .held) : Opened h l (l ++ [h]) where
  count p := by by_cases hp : p h = true <;> simp [openOf, isOpen, hp]
  sum p := by by_cases hp : p h = true <;> simp [openOf, isOpen, hp]
  mem x := by
    simp only [mem_openOf, List.mem_append, List.mem_singleton, and_true]
    constructor
    · rintro ⟨h1 | rfl, held⟩
      · exact .inl ⟨h1, held⟩
      · exact .inr rfl
    · rintro (⟨h1, held⟩ | rfl)
      · exact ⟨.inl h1, held⟩
      · exact ⟨.inr rfl, isOpen⟩

/-- What a record shows of itself to the card and the peer sums. -/
theorem openOf_map {f : Hold → Hold} {p : Hold → Bool} (state : ∀ h, (f h).state = h.state) (test : ∀ h, p (f h) = p h)
    (l : List Hold) : openOf (l.map f) p = (openOf l p).map f := by
  rw [openOf, List.filter_map]
  congr 1
  refine List.filter_congr fun h _ => ?_
  simp only [Function.comp_apply, state, test]

/-! ### Records named by their ids -/

theorem eq_of_id {l : List Hold} (ids : (l.map Hold.id).Nodup) {x y : Hold} (hx : x ∈ l) (hy : y ∈ l) (same : x.id = y.id) :
    x = y := List.inj_on_of_nodup_map ids hx hy same

/-- A table of different ids around one of its records, and the change of that record by its id. -/
theorem exists_split {l : List Hold} (ids : (l.map Hold.id).Nodup) {h : Hold} (mem : h ∈ l) (f : Hold → Hold) :
    ∃ pre post, l = pre ++ h :: post ∧ (l.map fun x => if x.id == h.id then f x else x) = pre ++ f h :: post := by
  obtain ⟨pre, post, rfl⟩ := List.append_of_mem mem
  refine ⟨pre, post, rfl, ?_⟩
  have others (x : Hold) (hx : x ∈ pre ++ post) : x.id ≠ h.id := by
    rintro same
    have apart := ids
    simp only [List.map_append, List.map_cons, List.nodup_append, List.nodup_cons, List.mem_cons, List.mem_map] at apart
    obtain ⟨-, ⟨after, -⟩, before⟩ := apart
    rcases List.mem_append.1 hx with hx | hx
    · exact before _ ⟨x, hx, rfl⟩ _ (.inl rfl) same
    · exact after ⟨x, hx, same⟩
  have keep (m : List Hold) (hm : ∀ x ∈ m, x ∈ pre ++ post) : (m.map fun x => if x.id == h.id then f x else x) = m := by
    conv_rhs => rw [← List.map_id m]
    exact List.map_congr_left fun x hx => by simp [others x (hm x hx)]
  rw [List.map_append, List.map_cons, keep pre fun x hx => List.mem_append_left _ hx,
    keep post fun x hx => List.mem_append_right _ hx]
  simp

/-! ### The invariant in parts -/

/-- The Hold Table by itself: ids different and in range, the end list names each ended record once, the counter counts the
OPEN records (R39, R41, R42). -/
structure HoldTable.Sound (ht : HoldTable) : Prop where
  ids : (ht.holds.map Hold.id).Nodup
  range : ∀ h ∈ ht.holds, 1 ≤ h.id ∧ h.id ≤ Config.idMax
  next : 1 ≤ ht.nextId ∧ ht.nextId ≤ Config.idMax
  endNodup : ht.endList.Nodup
  ended : ∀ i, i ∈ ht.endList ↔ ∃ h ∈ ht.holds, h.id = i ∧ h.state ≠ .held
  count : ht.openCount = (openOf ht.holds fun _ => true).length

/-- The figures of the peers' holds (R39, R49). -/
structure HoldTable.Sums (ht : HoldTable) (own : Nat) : Prop where
  count : ht.peerOpenCount = (openOf ht.holds fun h => h.asker != own).length
  held : ∀ x ∈ ht.peerHeld, x.sum = ((openOf ht.holds fun h => h.asker == x.peer && h.asker != own).map Hold.amount).sum

/-- A card's held and open holds are the sum and the number of the OPEN records on it, at most 4 (R16). -/
structure Card.Counts (c : Card) (l : List Hold) : Prop where
  held : c.held = ((openOf l fun h => h.serial == c.serial).map Hold.amount).sum
  openHolds : c.openHolds = (openOf l fun h => h.serial == c.serial).length
  most : c.openHolds ≤ 4

/-- The serials stand in ascending order below the counter (R17, R21). -/
structure CardTable.Ordered (ct : CardTable) : Prop where
  ascending : (ct.cards.map Card.serial).Pairwise (· < ·)
  below : ∀ c ∈ ct.cards, ∀ n, ct.serialNext = some n → c.serial < n

variable {s t : State} {st : Settings}

/-- The agreement of the two tables of an enrolled part. -/
structure Agrees (s : State) (st : Settings) : Prop where
  ordered : s.ct.Ordered
  counts : ∀ c ∈ s.ct.cards, c.Counts s.ht.holds
  fair : ∀ c ∈ s.ct.cards, c.Fair st
  onCard : ∀ h ∈ openOf s.ht.holds fun _ => true, ∃ c ∈ s.ct.cards, c.serial = h.serial
  sound : s.ht.Sound
  sums : s.ht.Sums st.station
  area : s.ht.holds.length ≤ st.holdArea ∧ st.holdArea ≤ 1024

theorem Card.Counts.unheld {c : Card} {l : List Hold} (h : c.Counts l) (none : c.openHolds = 0) : c.held = 0 := by
  have empty := List.eq_nil_of_length_eq_zero (h.openHolds.symm.trans none)
  rw [h.held, empty]
  rfl

theorem cardAgrees_iff (hs : s.tp.settings = some st) (c : Card) :
    cardAgrees s c ↔ c.Counts s.ht.holds ∧ c.Fair st := by
  constructor
  · rintro ⟨sum, count, most, held, ceiling, live, ended⟩
    have counts : c.Counts s.ht.holds := ⟨sum, count, most⟩
    exact ⟨counts, ⟨held, ceiling st hs, counts.unheld, live, ended⟩⟩
  · rintro ⟨⟨sum, count, most⟩, ⟨held, ceiling, -, live, ended⟩⟩
    refine ⟨sum, count, most, held, fun st' hs' => ?_, live, ended⟩
    obtain rfl := Option.some.inj (hs.symm.trans hs')
    exact ceiling

theorem tablesAgree_iff (hs : s.tp.settings = some st) : tablesAgree s ↔ Agrees s st := by
  have own := State.own_of_settings hs
  constructor
  · rintro ⟨ascending, below, cards, onCard, ids, range, low, high, endNodup, ended, count, peerCount, held, area, -⟩
    rw [own] at peerCount held
    exact ⟨⟨ascending, below⟩, fun c hc => ((cardAgrees_iff hs c).1 (cards c hc)).1,
      fun c hc => ((cardAgrees_iff hs c).1 (cards c hc)).2, onCard, ⟨ids, range, ⟨low, high⟩, endNodup, ended, count⟩,
      ⟨peerCount, held⟩, area st hs⟩
  · rintro ⟨⟨ascending, below⟩, counts, fair, onCard, ⟨ids, range, ⟨low, high⟩, endNodup, ended, count⟩,
      ⟨peerCount, held⟩, area⟩
    refine ⟨ascending, below, fun c hc => (cardAgrees_iff hs c).2 ⟨counts c hc, fair c hc⟩, onCard, ids, range, low, high,
      endNodup, ended, count, ?_, ?_, fun st' hs' => ?_, fun none => ?_⟩
    · rw [own]; exact peerCount
    · rw [own]; exact held
    · obtain rfl := Option.some.inj (hs.symm.trans hs')
      exact area
    · simp [hs] at none

/-- What the invariant reads is the same. -/
theorem tablesAgree_of_same (h : tablesAgree s) (settings : t.tp.settings = s.tp.settings)
    (cards : t.ct.cards = s.ct.cards) (serials : t.ct.serialNext = s.ct.serialNext) (holds : t.ht = s.ht) :
    tablesAgree t := by
  have own : t.own = s.own := by simp only [State.own, settings]
  have same (p : Hold → Bool) : openHolds t p = openHolds s p := by simp only [openHolds, holds]
  unfold tablesAgree cardAgrees
  simp only [settings, cards, serials, holds, own, same]
  exact h

theorem tablesAgree.of_changes {ps : List Part} (agree : tablesAgree s) (h : ChangesOnly ps s t)
    (hp : ∀ p ∈ [Part.settings, .cards, .serials, .holds], p ∉ ps) : tablesAgree t := by
  simp only [List.forall_mem_cons] at hp
  obtain ⟨settings, cards, serials, holds, -⟩ := hp
  exact tablesAgree_of_same agree (h .settings settings) (h .cards cards) (h .serials serials) (h .holds holds)

/-! ### Card records -/

theorem eq_of_serial {ct : CardTable} (ordered : ct.Ordered) {c d : Card} (hc : c ∈ ct.cards) (hd : d ∈ ct.cards)
    (same : c.serial = d.serial) : c = d :=
  List.inj_on_of_nodup_map (ordered.ascending.imp fun h => h.ne) hc hd same

/-- What holds of the cards after one change by serial: of the changed card, and of all others. -/
theorem forall_changed {ct : CardTable} (ordered : ct.Ordered) {c : Card} (hc : c ∈ ct.cards) {f : Card → Card}
    {P : Card → Prop} (changed : P (f c)) (others : ∀ d ∈ ct.cards, d.serial ≠ c.serial → P d) :
    ∀ d ∈ ct.cards.map fun x => if x.serial == c.serial then f x else x, P d := by
  intro d hd
  obtain ⟨x, hx, rfl⟩ := List.mem_map.1 hd
  by_cases same : x.serial = c.serial
  · obtain rfl := eq_of_serial ordered hx hc same
    simpa using changed
  · simpa [same] using others x hx same

theorem serials_changed {cards : List Card} {n : Nat} {f : Card → Card}
    (hf : ∀ c ∈ cards, c.serial = n → (f c).serial = c.serial) :
    (cards.map fun x => if x.serial == n then f x else x).map Card.serial = cards.map Card.serial := by
  rw [List.map_map]
  refine List.map_congr_left fun x hx => ?_
  by_cases same : x.serial = n
  · simp [same, hf x hx same]
  · simp [same]

theorem CardTable.Ordered.of_serials {ct ct' : CardTable} (ordered : ct.Ordered)
    (same : ct'.cards.map Card.serial = ct.cards.map Card.serial) (next : ct'.serialNext = ct.serialNext) : ct'.Ordered where
  ascending := same ▸ ordered.ascending
  below c hc n hn := by
    have named : c.serial ∈ ct.cards.map Card.serial := same ▸ List.mem_map_of_mem hc
    obtain ⟨d, hd, equal⟩ := List.mem_map.1 named
    exact equal ▸ ordered.below d hd n (next ▸ hn)

/-- Every hold on a card of the old list is on a card of a list with the same serials. -/
theorem onCard_of_serials {l l' : List Card} (same : l'.map Card.serial = l.map Card.serial) {n : Nat}
    (h : ∃ c ∈ l, c.serial = n) : ∃ c ∈ l', c.serial = n := by
  have named : n ∈ l.map Card.serial := List.mem_map.2 h
  exact List.mem_map.1 (same ▸ named)

theorem Agrees.card (agree : Agrees s st) {c : Card} (hc : c ∈ s.ct.cards) {f : Card → Card} (hf : c.Rewritten st (f c)) :
    Agrees (s.modCard c.serial f) st := by
  have same : (s.modCard c.serial f).ct.cards.map Card.serial = s.ct.cards.map Card.serial :=
    serials_changed fun d hd same => by rw [eq_of_serial agree.ordered hd hc same, hf.serial]
  have counts := agree.counts c hc
  exact
    { agree with
      ordered := agree.ordered.of_serials same rfl
      counts := forall_changed agree.ordered hc
        ⟨by rw [hf.held, hf.serial]; exact counts.held, by rw [hf.openHolds, hf.serial]; exact counts.openHolds,
          by rw [hf.openHolds]; exact counts.most⟩ fun d hd _ => agree.counts d hd
      fair := forall_changed agree.ordered hc (hf.fair (agree.fair c hc)) fun d hd _ => agree.fair d hd
      onCard := fun h hh => onCard_of_serials same (agree.onCard h hh) }

theorem Agrees.issue (agree : Agrees s st) {c : Card} (hn : s.ct.serialNext = some c.serial)
    (new : c.held = 0 ∧ c.openHolds = 0) (fair : c.Fair st) :
    Agrees { s with ct := { s.ct with cards := s.ct.cards ++ [c], serialNext := serialAfter c.serial } } st := by
  obtain ⟨unheld, noHold⟩ := new
  have older (d : Card) (hd : d ∈ s.ct.cards) : d.serial < c.serial := agree.ordered.below d hd _ hn
  have free : openOf s.ht.holds (fun h => h.serial == c.serial) = [] := by
    refine List.eq_nil_iff_forall_not_mem.2 fun h hh => ?_
    obtain ⟨mem, isOpen, same⟩ := mem_openOf.1 hh
    obtain ⟨d, hd, named⟩ := agree.onCard h (mem_openOf.2 ⟨mem, isOpen, rfl⟩)
    exact absurd (named.trans (beq_iff_eq.1 same)) (older d hd).ne
  have each {P : Card → Prop} (old : ∀ d ∈ s.ct.cards, P d) (this : P c) : ∀ d ∈ s.ct.cards ++ [c], P d := fun d hd =>
    (List.mem_append.1 hd).elim (old d) fun h => List.mem_singleton.1 h ▸ this
  have next {n : Nat} (h : serialAfter c.serial = some n) : n = c.serial + 1 := by
    unfold serialAfter at h
    split at h
    · cases h
    · exact (Option.some.inj h).symm
  exact
    { agree with
      ordered :=
        { ascending := by
            rw [List.map_append, List.pairwise_append]
            refine ⟨agree.ordered.ascending, List.pairwise_singleton _ _, ?_⟩
            rintro a ha b hb
            obtain ⟨d, hd, rfl⟩ := List.mem_map.1 ha
            obtain rfl := List.mem_singleton.1 hb
            exact older d hd
          below := each (fun d hd n h => by have := older d hd; have := next h; omega) fun n h => by have := next h; omega }
      counts := each agree.counts ⟨by rw [unheld, free]; rfl, by rw [noHold, free]; rfl, by omega⟩
      fair := each agree.fair fair
      onCard := fun h hh => by
        obtain ⟨d, hd, named⟩ := agree.onCard h hh
        exact ⟨d, List.mem_append_left _ hd, named⟩ }

/-- A card that has ended has no OPEN hold on it (R16). -/
theorem Agrees.unheld_of_ended (agree : Agrees s st) {c : Card} (hc : c ∈ s.ct.cards)
    (ended : c.state = .closed ∨ c.state = .lapsed) {h : Hold} (hh : h ∈ openOf s.ht.holds fun _ => true) :
    c.serial ≠ h.serial := by
  intro same
  obtain ⟨mem, isOpen, -⟩ := mem_openOf.1 hh
  have on : h ∈ openOf s.ht.holds fun x => x.serial == c.serial := mem_openOf.2 ⟨mem, isOpen, beq_iff_eq.2 same.symm⟩
  have some : 0 < c.openHolds := (agree.counts c hc).openHolds ▸ List.length_pos_of_mem on
  rcases ended with ended | ended <;> rcases (agree.fair c hc).live some with live | live <;>
    exact CardState.noConfusion (ended.symm.trans live)

theorem Agrees.purge (agree : Agrees s st) {c : Card} (hc : c ∈ s.ct.cards)
    (ended : c.state = .closed ∨ c.state = .lapsed) :
    Agrees { s with ct := { s.ct with cards := s.ct.cards.filter fun x => x.serial != c.serial } } st := by
  have kept {d : Card} (hd : d ∈ s.ct.cards.filter fun x => x.serial != c.serial) : d ∈ s.ct.cards := List.mem_of_mem_filter hd
  exact
    { agree with
      ordered :=
        ⟨agree.ordered.ascending.sublist (List.filter_sublist.map _), fun d hd => agree.ordered.below d (kept hd)⟩
      counts := fun d hd => agree.counts d (kept hd)
      fair := fun d hd => agree.fair d (kept hd)
      onCard := fun h hh => by
        obtain ⟨d, hd, named⟩ := agree.onCard h hh
        have other := agree.unheld_of_ended hc ended hh
        exact ⟨d, List.mem_filter.2 ⟨hd, by simpa [named] using other.symm⟩, named⟩ }

/-! ### A hold more or less -/

theorem Opened.counts_other {h : Hold} {l m : List Hold} (o : Opened h l m) {c : Card} (other : h.serial ≠ c.serial) :
    c.Counts m ↔ c.Counts l := by
  have count := o.count fun h => h.serial == c.serial
  have sum := o.sum fun h => h.serial == c.serial
  simp only [beq_iff_eq, other, if_false, Nat.add_zero] at count sum
  exact ⟨fun ⟨held, holds, most⟩ => ⟨held.trans sum, holds.trans count, most⟩,
    fun ⟨held, holds, most⟩ => ⟨held.trans sum.symm, holds.trans count.symm, most⟩⟩

theorem Opened.counts_on {h : Hold} {l m : List Hold} (o : Opened h l m) {c : Card} (on : h.serial = c.serial) :
    (openOf m fun h => h.serial == c.serial).length = (openOf l fun h => h.serial == c.serial).length + 1 ∧
      ((openOf m fun h => h.serial == c.serial).map Hold.amount).sum =
        ((openOf l fun h => h.serial == c.serial).map Hold.amount).sum + h.amount := by
  have count := o.count fun h => h.serial == c.serial
  have sum := o.sum fun h => h.serial == c.serial
  simp only [beq_iff_eq, on, if_true] at count sum
  exact ⟨count, sum⟩

/-- A grant on a card (R47). -/
theorem Opened.counts_grant {h : Hold} {l m : List Hold} (o : Opened h l m) {c : Card} (on : h.serial = c.serial)
    (room : c.openHolds < 4) (counts : c.Counts l) : (c.grant h.amount).Counts m := by
  obtain ⟨count, sum⟩ := o.counts_on on
  exact ⟨(congrArg (· + h.amount) counts.held).trans sum.symm, (congrArg (· + 1) counts.openHolds).trans count.symm, room⟩

/-- The end of a hold on a card (R50, R53). -/
theorem Opened.counts_end {h : Hold} {l m : List Hold} (o : Opened h l m) {c : Card} (on : h.serial = c.serial)
    {f : Card → Card} (hf : Card.Releases h.amount f) (counts : c.Counts m) : (f c).Counts l := by
  obtain ⟨count, sum⟩ := o.counts_on on
  have held := counts.held
  have holds := counts.openHolds
  have most := counts.most
  refine ⟨?_, ?_, ?_⟩
  · rw [hf.held, hf.serial]; omega
  · rw [hf.openHolds, hf.serial]; omega
  · rw [hf.openHolds]; omega

theorem Card.Fair.release {c : Card} {l : List Hold} {a : Nat} {f : Card → Card} (fair : c.Fair st)
    (counts : (f c).Counts l) (hf : Card.Releases a f) : (f c).Fair st where
  held := by
    have := fair.held
    have := hf.least c
    rw [hf.held]
    omega
  ceiling := (hf.most c).trans fair.ceiling
  unheld := counts.unheld
  live some := by
    rw [hf.openHolds] at some
    rw [hf.state]
    exact fair.live (by omega)
  ended h := by
    rw [hf.state] at h
    have := fair.ended h
    have := hf.most c
    omega

theorem Card.Fair.grant {c : Card} {g : Nat} (fair : c.Fair st) (active : c.state = .active)
    (funds : g ≤ c.balance - c.held) : (c.grant g).Fair st where
  held := by
    have := fair.held
    change c.held + g ≤ c.balance
    omega
  ceiling := fair.ceiling
  unheld := fun none => absurd none (Nat.succ_ne_zero _)
  live := fun _ => .inl active
  ended h := by
    have h : c.state = .closed ∨ c.state = .lapsed := h
    simp [active] at h

/-- The sums after a change to the sum of one peer: the table opened by a hold of it. -/
theorem HoldTable.Sums.opened {h : Hold} {ht ht' : HoldTable} {own : Nat} (sums : ht.Sums own)
    (o : Opened h ht.holds ht'.holds)
    (count : ht'.peerOpenCount = if h.asker != own then ht.peerOpenCount + 1 else ht.peerOpenCount)
    (held : ht'.peerHeld = if h.asker != own then
      ht.peerHeld.map (fun x => if x.peer == h.asker then { x with sum := x.sum + h.amount } else x) else ht.peerHeld) :
    ht'.Sums own := by
  have isPeer := o.count fun h => h.asker != own
  refine ⟨?_, fun x hx => ?_⟩
  · rw [count, isPeer, sums.count]
    split <;> rfl
  · have sum := o.sum fun h => h.asker == x.peer && h.asker != own
    rw [sum]
    rw [held] at hx
    by_cases mine : h.asker = own
    · rw [if_neg (by simpa using mine)] at hx
      simpa [mine] using sums.held x hx
    · rw [if_pos (by simpa using mine)] at hx
      obtain ⟨y, hy, rfl⟩ := List.mem_map.1 hx
      have before := sums.held y hy
      by_cases same : y.peer = h.asker
      · simp only [same, beq_self_eq_true, if_true, bne_iff_ne, Bool.and_eq_true, ne_eq, mine, not_false_eq_true, and_self]
        rw [before, same]
      · have other : ¬ h.asker = y.peer := fun e => same e.symm
        simpa [same, other] using before

/-- The sums after the end of a hold of a peer. -/
theorem HoldTable.Sums.ended {h : Hold} {ht ht' : HoldTable} {own : Nat} (sums : ht.Sums own)
    (o : Opened h ht'.holds ht.holds)
    (count : ht'.peerOpenCount = if h.asker != own then ht.peerOpenCount - 1 else ht.peerOpenCount)
    (held : ht'.peerHeld = if h.asker != own then
      ht.peerHeld.map (fun x => if x.peer == h.asker then { x with sum := x.sum - h.amount } else x) else ht.peerHeld) :
    ht'.Sums own := by
  have isPeer := o.count fun h => h.asker != own
  refine ⟨?_, fun x hx => ?_⟩
  · rw [count, sums.count, isPeer]
    split <;> simp
  · rw [held] at hx
    by_cases mine : h.asker = own
    · rw [if_neg (by simpa using mine)] at hx
      have sum := o.sum fun h => h.asker == x.peer && h.asker != own
      have before := sums.held x hx
      rw [before, sum]
      simp [mine]
    · rw [if_pos (by simpa using mine)] at hx
      obtain ⟨y, hy, rfl⟩ := List.mem_map.1 hx
      have before := sums.held y hy
      have sum := o.sum fun h => h.asker == y.peer && h.asker != own
      by_cases same : y.peer = h.asker
      · simp only [same, beq_self_eq_true, bne_iff_ne, Bool.and_eq_true, ne_eq, mine, not_false_eq_true, and_self,
          if_true] at before sum ⊢
        omega
      · have other : ¬ h.asker = y.peer := fun e => same e.symm
        simp only [beq_iff_eq, same, if_false] at before ⊢
        simpa [other] using before.trans sum

/-! ### Cells (R42) -/

theorem State.takeCell_cases {u : State} (h : s.takeCell st = some u) :
    (s.ht.holds.length < st.holdArea ∧ u = s) ∨
      ∃ i rest, s.ht.endList = i :: rest ∧
        u = { s with ht := { s.ht with holds := s.ht.holds.filter fun h => h.id != i, endList := rest } } := by
  unfold State.takeCell at h
  split at h
  next free => exact .inl ⟨free, (Option.some.inj h).symm⟩
  split at h; · cases h
  next i rest hl => exact .inr ⟨i, rest, hl, (Option.some.inj h).symm⟩

/-- The removal of the oldest ended record leaves the OPEN records. -/
theorem HoldTable.Sound.openOf_removed {ht : HoldTable} (sound : ht.Sound) {i : Nat} (mem : i ∈ ht.endList)
    (p : Hold → Bool) : openOf (ht.holds.filter fun h => h.id != i) p = openOf ht.holds p := by
  obtain ⟨d, hd, rfl, ended⟩ := (sound.ended i).1 mem
  rw [openOf, List.filter_filter]
  refine List.filter_congr fun h hh => ?_
  by_cases same : h.id = d.id
  · obtain rfl := eq_of_id sound.ids hh hd same
    simp [ended]
  · simp [same]

theorem HoldTable.Sound.removed {ht : HoldTable} (sound : ht.Sound) {i : Nat} {rest : List Nat}
    (hl : ht.endList = i :: rest) :
    HoldTable.Sound { ht with holds := ht.holds.filter fun h => h.id != i, endList := rest } := by
  have mem : i ∈ ht.endList := hl ▸ List.mem_cons_self
  have nodup := sound.endNodup
  rw [hl, List.nodup_cons] at nodup
  exact
    { ids := sound.ids.sublist (List.filter_sublist.map _)
      range := fun h hh => sound.range h (List.mem_of_mem_filter hh)
      next := sound.next
      endNodup := nodup.2
      ended := fun j => by
        have named := sound.ended j
        rw [hl, List.mem_cons] at named
        constructor
        · intro hj
          obtain ⟨h, hh, rfl, ended⟩ := named.1 (.inr hj)
          refine ⟨h, List.mem_filter.2 ⟨hh, ?_⟩, rfl, ended⟩
          simpa using fun same : h.id = i => nodup.1 (same ▸ hj)
        · rintro ⟨h, hh, same, ended⟩
          obtain ⟨hh, other⟩ := List.mem_filter.1 hh
          refine (named.2 ⟨h, hh, same, ended⟩).resolve_left ?_
          rintro rfl
          simp [same] at other
      count := sound.count.trans (congrArg List.length (sound.openOf_removed mem _)).symm }

theorem Agrees.takeCell (agree : Agrees s st) {u : State} (h : s.takeCell st = some u) :
    Agrees u st ∧ u.ht.holds.length < st.holdArea := by
  obtain ⟨free, rfl⟩ | ⟨i, rest, hl, rfl⟩ := State.takeCell_cases h
  · exact ⟨agree, free⟩
  have mem : i ∈ s.ht.endList := hl ▸ List.mem_cons_self
  have same := agree.sound.openOf_removed mem
  obtain ⟨d, hd, named, -⟩ := (agree.sound.ended i).1 mem
  have fewer : (s.ht.holds.filter fun h => h.id != i).length < s.ht.holds.length :=
    List.length_filter_lt_length_iff_exists.2 ⟨d, hd, by simp [named]⟩
  have less := fewer.trans_le agree.area.1
  refine ⟨?_, less⟩
  exact
    { ordered := agree.ordered
      counts := fun c hc =>
        ⟨by rw [same]; exact (agree.counts c hc).held, by rw [same]; exact (agree.counts c hc).openHolds,
          (agree.counts c hc).most⟩
      fair := agree.fair
      onCard := fun h hh => agree.onCard h (by rwa [same] at hh)
      sound := agree.sound.removed hl
      sums := ⟨by rw [same]; exact agree.sums.count, fun x hx => by rw [same]; exact agree.sums.held x hx⟩
      area := ⟨less.le, agree.area.2⟩ }

/-! ### Grants (R41, R47) -/

/-- The id of a new hold is free: the ring of ids is longer than the Hold Table. -/
theorem Agrees.newHoldId (agree : Agrees s st) :
    s.newHoldId ∉ s.ht.holds.map Hold.id ∧ 1 ≤ s.newHoldId ∧ s.newHoldId ≤ Config.idMax := by
  obtain ⟨low, high⟩ := agree.sound.next
  have room : (s.ht.holds.map Hold.id).length < Config.idMax := by
    have := agree.area
    simp only [List.length_map, Config.idMax]
    omega
  have free := firstFree_not_mem low high room
  rw [List.length_map] at free
  exact ⟨free, firstFree_mem _ low high⟩

theorem State.granted_ht (s : State) (st : Settings) (asker : Nat) (askTag : Option Nat) (serial asked least g : Nat) :
    (s.granted st asker askTag serial asked least g).ht =
      { s.ht with
        holds := s.ht.holds ++
          [newHold s.newHoldId serial asker askTag asked least g (s.now + st.holdLifetime * 1000000)],
        openCount := s.ht.openCount + 1,
        peerOpenCount := if asker != st.station then s.ht.peerOpenCount + 1 else s.ht.peerOpenCount,
        peerHeld := if asker != st.station then
          s.ht.peerHeld.map (fun x => if x.peer == asker then { x with sum := x.sum + g } else x) else s.ht.peerHeld,
        nextId := nextInRing Config.idMax s.newHoldId } := by
  unfold State.granted
  dsimp only
  split <;> simp

theorem State.granted_cards (s : State) (st : Settings) (asker : Nat) (askTag : Option Nat) (serial asked least g : Nat) :
    (s.granted st asker askTag serial asked least g).ct = (s.modCard serial fun c => c.grant g).ct := by
  unfold State.granted
  dsimp only
  split <;> rfl

theorem Agrees.granted (agree : Agrees s st) {c : Card} (hc : c ∈ s.ct.cards) (active : c.state = .active)
    (room : c.openHolds < 4) {g : Nat} (funds : g ≤ c.balance - c.held) (cell : s.ht.holds.length < st.holdArea)
    (asker : Nat) (askTag : Option Nat) (asked least : Nat) :
    Agrees (s.granted st asker askTag c.serial asked least g) st := by
  obtain ⟨fresh, low, high⟩ := agree.newHoldId
  have ht := s.granted_ht st asker askTag c.serial asked least g
  have ct := s.granted_cards st asker askTag c.serial asked least g
  set new := newHold s.newHoldId c.serial asker askTag asked least g (s.now + st.holdLifetime * 1000000) with hnew
  have opened : Opened new s.ht.holds (s.ht.holds ++ [new]) := .of_append rfl
  have same : (s.modCard c.serial fun c => c.grant g).ct.cards.map Card.serial = s.ct.cards.map Card.serial :=
    serials_changed fun _ _ _ => rfl
  have each {P : Hold → Prop} (old : ∀ h ∈ s.ht.holds, P h) (this : P new) : ∀ h ∈ s.ht.holds ++ [new], P h := fun h hh =>
    (List.mem_append.1 hh).elim (old h) fun e => List.mem_singleton.1 e ▸ this
  exact
    { ordered := ct ▸ agree.ordered.of_serials same rfl
      counts := by
        rw [ct, ht]
        exact forall_changed agree.ordered hc (opened.counts_grant rfl room (agree.counts c hc)) fun d hd other =>
          (opened.counts_other fun e => other e.symm).2 (agree.counts d hd)
      fair := by
        rw [ct]
        exact forall_changed agree.ordered hc ((agree.fair c hc).grant active funds) fun d hd _ => agree.fair d hd
      onCard := by
        rw [ct, ht]
        intro h hh
        refine onCard_of_serials same ?_
        rcases (opened.mem h).1 hh with old | rfl
        · exact agree.onCard h old
        · exact ⟨c, hc, rfl⟩
      sound := by
        rw [ht]
        exact
          { ids := by
              rw [List.map_append, List.nodup_append]
              refine ⟨agree.sound.ids, List.nodup_singleton _, ?_⟩
              rintro a ha b hb rfl
              have named : a = s.newHoldId := List.mem_singleton.1 hb
              exact fresh (named ▸ ha)
            range := each agree.sound.range ⟨low, high⟩
            next := nextInRing_mem low high
            endNodup := agree.sound.endNodup
            ended := fun i => by
              refine (agree.sound.ended i).trans ⟨fun ⟨h, hh, found⟩ => ⟨h, List.mem_append_left _ hh, found⟩, ?_⟩
              rintro ⟨h, hh, named, ended⟩
              rcases List.mem_append.1 hh with hh | hh
              · exact ⟨h, hh, named, ended⟩
              · obtain rfl := List.mem_singleton.1 hh
                exact absurd rfl ended
            count := (congrArg (· + 1) agree.sound.count).trans (opened.count fun _ => true).symm }
      sums := by
        rw [ht]
        exact agree.sums.opened opened rfl rfl
      area := by
        rw [ht]
        refine ⟨?_, agree.area.2⟩
        rw [List.length_append]
        exact cell }

/-! ### Ends of holds (R39, R40) -/

theorem State.endHold_ht (s : State) (st : Settings) (h : Hold) (f : Hold → Hold) :
    (s.endHold st h f).ht =
      { s.ht with
        holds := s.ht.holds.map fun x => if x.id == h.id then { f x with deadline := none } else x,
        openCount := s.ht.openCount - 1,
        peerOpenCount := if h.asker != st.station then s.ht.peerOpenCount - 1 else s.ht.peerOpenCount,
        endList := s.ht.endList ++ [h.id],
        peerHeld := if h.asker != st.station then
          s.ht.peerHeld.map (fun x => if x.peer == h.asker then { x with sum := x.sum - h.amount } else x)
          else s.ht.peerHeld } := by
  unfold State.endHold
  dsimp only
  split <;> simp

theorem HoldTable.Sound.ended_record {ht ht' : HoldTable} (sound : ht.Sound) {pre post : List Hold} {h d : Hold}
    (before : ht.holds = pre ++ h :: post) (after : ht'.holds = pre ++ d :: post) (isOpen : h.state = .held)
    (ended : d.state ≠ .held) (named : d.id = h.id) (count : ht'.openCount = ht.openCount - 1)
    (list : ht'.endList = ht.endList ++ [h.id]) (next : ht'.nextId = ht.nextId) : ht'.Sound := by
  have same : ht'.holds.map Hold.id = ht.holds.map Hold.id := by simp [before, after, named]
  have opened : Opened h ht'.holds ht.holds := by rw [before, after]; exact .of_split isOpen ended
  have mem : h ∈ ht.holds := before ▸ List.mem_append_right _ List.mem_cons_self
  have open_ : h.id ∉ ht.endList := fun listed => by
    obtain ⟨x, hx, same, done⟩ := (sound.ended h.id).1 listed
    exact done (eq_of_id sound.ids hx mem same ▸ isOpen)
  exact
    { ids := same ▸ sound.ids
      range := fun x hx => by
        have listed : x.id ∈ ht.holds.map Hold.id := same ▸ List.mem_map_of_mem hx
        obtain ⟨y, hy, equal⟩ := List.mem_map.1 listed
        exact equal ▸ sound.range y hy
      next := next ▸ sound.next
      endNodup := by
        rw [list, List.nodup_append]
        refine ⟨sound.endNodup, List.nodup_singleton _, ?_⟩
        rintro a ha b hb rfl
        exact open_ (List.mem_singleton.1 hb ▸ ha)
      ended := fun i => by
        rw [list, List.mem_append, List.mem_singleton, sound.ended i, before, after]
        simp only [List.mem_append, List.mem_cons]
        constructor
        · rintro (⟨x, hx | rfl | hx, found⟩ | rfl)
          · exact ⟨x, .inl hx, found⟩
          · exact absurd isOpen found.2
          · exact ⟨x, .inr (.inr hx), found⟩
          · exact ⟨d, .inr (.inl rfl), named, ended⟩
        · rintro ⟨x, hx | rfl | hx, found⟩
          · exact .inl ⟨x, .inl hx, found⟩
          · exact .inr (found.1.symm.trans named)
          · exact .inl ⟨x, .inr (.inr hx), found⟩
      count := by
        rw [count, sound.count, opened.count]
        simp }

theorem Agrees.endHold (agree : Agrees s st) {h : Hold} (hh : h ∈ s.ht.holds) (isOpen : h.state = .held)
    {f : Hold → Hold} (hf : Hold.Ends f) {g : Card → Card} (hg : Card.Releases h.amount g) :
    Agrees ((s.modCard h.serial g).endHold st h f) st := by
  have ht := (s.modCard h.serial g).endHold_ht st h f
  have ct : ((s.modCard h.serial g).endHold st h f).ct.cards = (s.modCard h.serial g).ct.cards :=
    State.endHold_changes _ st h f .cards (by decide)
  have serials : ((s.modCard h.serial g).endHold st h f).ct.serialNext = s.ct.serialNext :=
    State.endHold_changes _ st h f .serials (by decide)
  obtain ⟨pre, post, before, after⟩ := exists_split agree.sound.ids hh fun x => { f x with deadline := none }
  have opened : Opened h ((s.modCard h.serial g).endHold st h f).ht.holds s.ht.holds := by
    rw [ht]
    change Opened h (s.ht.holds.map _) _
    rw [after, before]
    exact .of_split isOpen (hf.state h)
  obtain ⟨c, hc, on⟩ := agree.onCard h (mem_openOf.2 ⟨hh, isOpen, rfl⟩)
  have same : (s.modCard h.serial g).ct.cards.map Card.serial = s.ct.cards.map Card.serial :=
    serials_changed fun d _ _ => hg.serial d
  have counted := opened.counts_end on.symm hg (agree.counts c hc)
  rw [← on] at ct same ht ⊢
  rw [← on] at opened counted serials
  exact
    { ordered := agree.ordered.of_serials (by rw [ct, same]) serials
      counts := by
        rw [ct]
        exact forall_changed agree.ordered hc counted fun d hd other =>
          (opened.counts_other fun e => other (e.symm.trans on.symm)).1 (agree.counts d hd)
      fair := by
        rw [ct]
        exact forall_changed agree.ordered hc ((agree.fair c hc).release counted hg) fun d hd _ => agree.fair d hd
      onCard := fun x hx => by
        rw [ct]
        exact onCard_of_serials same (agree.onCard x ((opened.mem x).2 (.inl hx)))
      sound := by
        rw [ht]
        exact agree.sound.ended_record before after isOpen (hf.state h) (hf.id h) rfl rfl rfl
      sums := agree.sums.ended opened (by rw [ht]; rfl) (by rw [ht]; rfl)
      area := by
        rw [ht]
        refine ⟨?_, agree.area.2⟩
        rw [List.length_map]
        exact agree.area.1 }

/-! ### Starts (R61, R185) -/

theorem Hold.restart_cases (h : Hold) (deadline : Moment) : ∃ d, h.restart deadline = { h with deadline := d } := by
  unfold Hold.restart
  split
  · exact ⟨_, rfl⟩
  · exact ⟨h.deadline, rfl⟩

theorem openOf_warm (ht : HoldTable) (deadline : Moment) {p : Hold → Bool}
    (test : ∀ (h : Hold) d, p { h with deadline := d } = p h) :
    openOf (ht.warm deadline).holds p = (openOf ht.holds p).map fun h => h.restart deadline := by
  refine openOf_map (fun h => ?_) (fun h => ?_) _ <;> obtain ⟨d, hd⟩ := h.restart_cases deadline <;> rw [hd]
  exact test h d

theorem openOf_length_of_warm (ht : HoldTable) (deadline : Moment) {p : Hold → Bool}
    (test : ∀ (h : Hold) d, p { h with deadline := d } = p h) :
    (openOf (ht.warm deadline).holds p).length = (openOf ht.holds p).length := by
  rw [openOf_warm ht deadline test, List.length_map]

theorem openOf_sum_of_warm (ht : HoldTable) (deadline : Moment) {p : Hold → Bool}
    (test : ∀ (h : Hold) d, p { h with deadline := d } = p h) :
    ((openOf (ht.warm deadline).holds p).map Hold.amount).sum = ((openOf ht.holds p).map Hold.amount).sum := by
  rw [openOf_warm ht deadline test, List.map_map]
  refine congrArg List.sum (List.map_congr_left fun h _ => ?_)
  obtain ⟨d, hd⟩ := h.restart_cases deadline
  simp only [Function.comp_apply, hd]

/-- A table with the deadlines of its OPEN records restarted: every figure of the invariant is as it was. -/
theorem HoldTable.Sound.warm {ht : HoldTable} (sound : ht.Sound) (deadline : Moment) : (ht.warm deadline).Sound where
  ids := by
    have same : (ht.warm deadline).holds.map Hold.id = ht.holds.map Hold.id := by
      rw [HoldTable.warm, List.map_map]
      refine List.map_congr_left fun h _ => ?_
      obtain ⟨d, hd⟩ := h.restart_cases deadline
      simp only [Function.comp_apply, hd]
    exact same ▸ sound.ids
  range h hh := by
    obtain ⟨x, hx, rfl⟩ := List.mem_map.1 hh
    obtain ⟨d, hd⟩ := x.restart_cases deadline
    rw [hd]
    exact sound.range x hx
  next := sound.next
  endNodup := sound.endNodup
  ended i := by
    refine (sound.ended i).trans ⟨?_, ?_⟩
    · rintro ⟨h, hh, found⟩
      obtain ⟨d, hd⟩ := h.restart_cases deadline
      exact ⟨h.restart deadline, List.mem_map_of_mem hh, by rw [hd]; exact found⟩
    · rintro ⟨h, hh, found⟩
      obtain ⟨x, hx, rfl⟩ := List.mem_map.1 hh
      obtain ⟨d, hd⟩ := x.restart_cases deadline
      rw [hd] at found
      exact ⟨x, hx, found⟩
  count := sound.count.trans (openOf_length_of_warm ht deadline fun _ _ => rfl).symm

theorem tablesAgree.restart (agree : tablesAgree s) (deadline : Moment) :
    tablesAgree { s with ht := s.ht.warm deadline } := by
  have length {p : Hold → Bool} (test : ∀ (h : Hold) d, p { h with deadline := d } = p h) :
      (openHolds { s with ht := s.ht.warm deadline } p).length = (openHolds s p).length := openOf_length_of_warm _ _ test
  have sum {p : Hold → Bool} (test : ∀ (h : Hold) d, p { h with deadline := d } = p h) :
      ((openHolds { s with ht := s.ht.warm deadline } p).map Hold.amount).sum = ((openHolds s p).map Hold.amount).sum :=
    openOf_sum_of_warm _ _ test
  obtain ⟨ascending, below, cards, onCard, ids, range, low, high, endNodup, ended, count, peerCount, held, area, empty⟩ := agree
  have sound := HoldTable.Sound.warm ⟨ids, range, ⟨low, high⟩, endNodup, ended, count⟩ deadline
  refine ⟨ascending, below, fun c hc => ?_, fun h hh => ?_, sound.ids, sound.range, low, high, endNodup, sound.ended,
    sound.count, ?_, fun x hx => ?_, fun st hs => ?_, fun none => ?_⟩
  · obtain ⟨amount, number, rest⟩ := cards c hc
    exact ⟨amount.trans (sum fun _ _ => rfl).symm, number.trans (length fun _ _ => rfl).symm, rest⟩
  · have opened : h ∈ openOf (s.ht.warm deadline).holds fun _ => true := hh
    rw [openOf_warm _ _ fun _ _ => rfl] at opened
    obtain ⟨x, hx, rfl⟩ := List.mem_map.1 opened
    obtain ⟨d, hd⟩ := x.restart_cases deadline
    rw [hd]
    exact onCard x hx
  · exact peerCount.trans (length fun _ _ => rfl).symm
  · exact (held x hx).trans (sum fun _ _ => rfl).symm
  · obtain ⟨fits, most⟩ := area st hs
    exact ⟨by rw [HoldTable.warm, List.length_map]; exact fits, most⟩
  · obtain ⟨noHold, noCard⟩ := empty none
    exact ⟨by rw [HoldTable.warm, noHold]; rfl, noCard⟩

/-- The Hold Table area of ENROL is at most 1,024 cells (R185). -/
theorem readSettings_holdArea {f : EnrolFields} {st : Settings} (h : readSettings f = .ok st) : st.holdArea ≤ 1024 := by
  unfold readSettings at h
  obtain ⟨-, h⟩ := settings_of_ite h
  obtain ⟨-, h⟩ := settings_of_ite h
  obtain ⟨area, h⟩ := settings_of_ite h
  obtain ⟨-, h⟩ := settings_of_ite h
  obtain ⟨ceiling, h⟩ := settings_of_amount h
  obtain ⟨-, h⟩ := settings_of_ite h
  obtain ⟨floatLimit, h⟩ := settings_of_amount h
  obtain ⟨-, h⟩ := settings_of_ite h
  obtain ⟨exposureLimit, h⟩ := settings_of_amount h
  obtain ⟨-, h⟩ := settings_of_ite h
  obtain ⟨band, h⟩ := settings_of_amount h
  obtain ⟨-, h⟩ := settings_of_ite h
  obtain ⟨-, h⟩ := settings_of_ite h
  obtain ⟨-, h⟩ := settings_of_ite h
  obtain ⟨-, h⟩ := settings_of_ite h
  obtain rfl := Except.ok.inj h
  exact (of_not_not area).2

theorem tablesAgree.enrol (agree : tablesAgree s) (hs : s.tp.settings = none) (most : st.holdArea ≤ 1024) :
    tablesAgree (s.applySettings st) := by
  obtain ⟨ascending, below, -, -, ids, range, low, high, endNodup, ended, count, peerCount, held, -, empty⟩ := agree
  obtain ⟨noHold, noCard⟩ := empty hs
  have noOpen (p : Hold → Bool) : openHolds s p = [] := by simp [openHolds, noHold]
  have noOpen' (p : Hold → Bool) : openHolds (s.applySettings st) p = [] := noOpen p
  refine ⟨ascending, below, fun c hc => ?_, fun h hh => ?_, ids, range, low, high, endNodup, ended, count, ?_, fun x hx => ?_,
    fun st' hs' => ?_, nofun⟩
  · have hc : c ∈ s.ct.cards := hc
    rw [noCard] at hc
    exact absurd hc List.not_mem_nil
  · rw [noOpen'] at hh
    exact absurd hh List.not_mem_nil
  · rw [noOpen']
    exact peerCount.trans (congrArg List.length (noOpen _))
  · rw [noOpen']
    exact (held x hx).trans (by rw [noOpen])
  · obtain rfl := Option.some.inj hs'
    refine ⟨?_, most⟩
    change s.ht.holds.length ≤ _
    rw [noHold]
    exact Nat.zero_le _

theorem tablesAgree.cold (s : State) : tablesAgree s.coldStart := by
  refine ⟨.nil, nofun, nofun, nofun, .nil, nofun, le_rfl, (by decide : 1 ≤ Config.idMax), .nil, fun i => ?_, rfl, rfl,
    fun x hx => ?_, nofun, fun _ => ⟨rfl, rfl⟩⟩
  · exact iff_of_false List.not_mem_nil fun ⟨h, hh, _⟩ => List.not_mem_nil hh
  · obtain ⟨p, -, rfl⟩ := List.mem_map.1 hx
    rfl

/-! ### Every act -/

/-- An act of an enrolled part that leaves it enrolled. -/
theorem tablesAgree.of_agrees (agree : tablesAgree s) (hs : s.tp.settings = some st) (ht : t.tp.settings = s.tp.settings)
    (h : Agrees s st → Agrees t st) : tablesAgree t :=
  (tablesAgree_iff (ht.trans hs)).2 (h ((tablesAgree_iff hs).1 agree))

theorem State.takeCell_settings {u : State} (h : s.takeCell st = some u) : u.tp.settings = s.tp.settings :=
  State.takeCell_changes s u st h .settings (by decide)

theorem State.granted_settings (s : State) (st : Settings) (asker : Nat) (askTag : Option Nat) (serial asked least g : Nat) :
    (s.granted st asker askTag serial asked least g).tp.settings = s.tp.settings :=
  s.granted_changes st asker askTag serial asked least g .settings (by decide)

theorem State.takeCell_ct {u : State} (h : s.takeCell st = some u) : u.ct = s.ct := by
  obtain ⟨-, rfl⟩ | ⟨i, rest, -, rfl⟩ := State.takeCell_cases h <;> rfl

theorem Act.keeps_tablesAgree {s t : State} (h : Act s t) (agree : tablesAgree s) : tablesAgree t := by
  cases h with
  | mild h => exact tablesAgree_of_same agree (h .settings) (h .cards) (h .serials) (h .holds)
  | card hs hc hf => exact agree.of_agrees hs rfl fun a => a.card hc hf
  | issue hs _ hn new fair => exact agree.of_agrees hs rfl fun a => a.issue hn new fair
  | purge hc ended =>
    cases hs : s.tp.settings with
    | some st => exact agree.of_agrees hs rfl fun a => a.purge hc ended
    | none =>
      obtain ⟨-, -, -, -, -, -, -, -, -, -, -, -, -, -, empty⟩ := agree
      rw [(empty hs).2] at hc
      exact absurd hc List.not_mem_nil
  | grant hs hc active room funds cell asker askTag asked least =>
    refine agree.of_agrees hs ((State.granted_settings _ _ _ _ _ _ _ _).trans (State.takeCell_settings cell)) fun a => ?_
    obtain ⟨taken, free⟩ := a.takeCell cell
    exact taken.granted (State.takeCell_ct cell ▸ hc) active room funds free asker askTag asked least
  | endHold hs hh isOpen hf hg =>
    exact agree.of_agrees hs (State.endsHold_changes _ _ _ _ _ _ .settings (by decide)) fun a => a.endHold hh isOpen hf hg
  | restart deadline => exact agree.restart deadline
  | addExchange => exact agree.of_changes (State.addExchange_changes _ _ _ _ _) (by decide)
  | stage | cursor | target => exact tablesAgree_of_same agree rfl rfl rfl rfl
  | sweepEnd => exact agree.of_changes (State.sweepEnd_changes _ _) (by decide)
  | close => exact agree.of_changes (State.closeAt_changes _ _ _) (by decide)
  | pendingClose => exact agree.of_changes (State.pendingClose_changes _ _) (by decide)
  | makeSeal => exact agree.of_changes (State.makeSeal_changes _ _ _) (by decide)
  | completeDeferred => exact agree.of_changes (State.completeDeferred_changes _ _) (by decide)
  | enrol hs hf => exact agree.enrol hs (readSettings_holdArea hf)
  | cold => exact .cold s

/-- Settles O60: every act of a step keeps cards, holds, counters and sums in agreement; an id is free because the ring of
ids is longer than the Hold Table, a record that ends or goes is found by its id. -/
theorem tablesStayInAgreement : Obligations.TablesStayInAgreement := fun _ _ agree h =>
  step_keeps Act.keeps_tablesAgree agree h

end Sys2Proof.Machine
end


section
/-! ## The state after reset

A cold start of the state after reset is that state again, so what holds after a cold start holds of it. -/

namespace Sys2Proof.Machine

theorem State.reset_coldStart : State.reset.coldStart = State.reset := rfl

/-- Every peer held sum starts at zero (R61). -/
theorem State.reset_heldSum (p : Nat) : State.reset.heldSum p = 0 := by
  unfold State.heldSum
  split
  next x found =>
    obtain ⟨q, -, rfl⟩ := List.mem_map.1 (List.mem_of_find?_eq_some found)
    rfl
  next => rfl

theorem wantedClear_clear {m : WantedMarks} (h : m ∈ wantedClear) : m.tally = false ∧ m.check = false := by
  obtain ⟨p, -, rfl⟩ := List.mem_map.1 h
  exact ⟨rfl, rfl⟩

theorem State.reset_peers {e : PeerEntry} (h : e ∈ State.reset.pt) : e = PeerEntry.fresh e.peer := by
  obtain ⟨p, -, rfl⟩ := List.mem_map.1 h
  rfl

/-- Settles O4: the start tables are the values `State.reset` is written with; its invariants are those of a cold
start. -/
theorem resetIsAColdStart : Obligations.ResetIsAColdStart :=
  ⟨⟨rfl, rfl, rfl, rfl, rfl, rfl⟩, ⟨rfl, rfl, rfl, rfl, rfl⟩, ⟨rfl, rfl, rfl, rfl, rfl, rfl, rfl⟩,
    ⟨rfl, rfl, rfl, rfl, rfl, State.reset_heldSum⟩, ⟨rfl, rfl, rfl, rfl, rfl⟩,
    ⟨rfl, rfl, rfl, rfl, rfl, rfl, rfl, fun _ => wantedClear_clear, rfl, rfl, rfl, rfl, rfl, rfl⟩,
    ⟨rfl, fun _ => State.reset_peers⟩, ⟨rfl, rfl, rfl, rfl, rfl, rfl, rfl⟩, ⟨rfl, rfl, rfl, rfl⟩,
    ⟨rfl, rfl, rfl, rfl, rfl⟩, fun _ _ _ _ _ => rfl, sealingWhole.cold .reset, withinRoom.cold .reset,
    tablesAgree.cold .reset⟩

end Sys2Proof.Machine
end


section
/-! ## The Card Table's operations on a record that is found

What a look-up finds after one change, what the access test (R32) does to the record of a serial, and what the till
commands do with the record it leaves. -/

namespace Sys2Proof.Machine

variable {s : State} {n : Nat} {c : Card}

/-! ### Look-ups -/

/-- A change that keeps the serial of the record it is made to. -/
theorem State.findCard_modCard {f : Card → Card} (serial : ∀ c, (f c).serial = c.serial) (h : s.findCard n = some c) :
    (s.modCard n f).findCard n = some (f c) := by
  have tested : ((fun c => c.serial == n) ∘ fun c : Card => if c.serial == n then f c else c) = fun c => c.serial == n := by
    funext c
    rw [Function.comp_apply]
    split <;> simp only [serial]
  have here : (c.serial == n) = true := beq_iff_eq.2 (State.findCard_mem h).2
  rw [State.findCard] at h ⊢
  rw [State.modCard_ct_cards, List.find?_map, tested, h, Option.map_some, if_pos here]

theorem State.cardFigures_found (h : s.findCard n = some c) : s.cardFigures n = (c.balance, c.balance - c.held, c.expiry) := by
  rw [State.cardFigures, h]

theorem State.cardFigures_absent (h : s.findCard n = none) : s.cardFigures n = (0, 0, none) := by
  rw [State.cardFigures, h]

/-! ### Due records and the access test (R31, R32) -/

theorem Card.lapsePending_iff (c : Card) (o : Nat) : c.lapsePending o = true ↔ c.due o = true ∧ 0 < c.openHolds := by
  rw [Card.lapsePending, Bool.and_eq_true, decide_eq_true_iff]

/-- Only an ACTIVE or FROZEN record is due. -/
theorem Card.not_lapsePending_of_closed {o : Nat} (h : c.state = .closed) : c.lapsePending o = false := by
  simp [Card.lapsePending, Card.due, h]

/-- Lapse pending or LAPSED: not CLOSED. -/
theorem Card.not_closed_of_lapsed {o : Nat} (h : c.state = .lapsed ∨ c.lapsePending o = true) : c.state ≠ .closed := by
  intro closed
  rcases h with lapsed | pending
  · exact nomatch closed.symm.trans lapsed
  · exact nomatch (Card.not_lapsePending_of_closed closed).symm.trans pending

theorem Card.not_ended_of_live (h : c.state = .active ∨ c.state = .frozen) : c.state ≠ .closed ∧ c.state ≠ .lapsed := by
  rcases h with live | live <;> rw [live] <;> exact ⟨nofun, nofun⟩

theorem State.lapseIfDue_absent (h : s.findCard n = none) : s.lapseIfDue n = s := by
  rw [State.lapseIfDue, h]

theorem State.lapseIfDue_stays (h : s.findCard n = some c) (keep : c.due s.cc.openCycle = false ∨ 0 < c.openHolds) :
    s.lapseIfDue n = s := by
  rw [State.lapseIfDue, h]
  refine if_neg fun due => ?_
  simp only [Bool.and_eq_true, beq_iff_eq] at due
  rcases keep with notDue | held
  · exact absurd due.1 (by simp [notDue])
  · exact held.ne' due.2

theorem State.lapseIfDue_lapses (h : s.findCard n = some c) (due : c.due s.cc.openCycle = true) (free : c.openHolds = 0) :
    s.lapseIfDue n = s.lapseCard c := by
  rw [State.lapseIfDue, h]
  exact if_pos (by simp [due, free])

theorem State.lapseCard_findCard (h : s.findCard n = some c) :
    (s.lapseCard c).findCard n = some (c.lapse s.cc.openCycle) := by
  have lapsed : (s.modCard n fun c => c.lapse s.cc.openCycle).findCard n = some (c.lapse s.cc.openCycle) :=
    State.findCard_modCard (fun _ => rfl) h
  rw [← (State.findCard_mem h).2] at lapsed ⊢
  exact lapsed

theorem State.lapseIfDue_findCard_none : (s.lapseIfDue n).findCard n = none ↔ s.findCard n = none := by
  refine ⟨fun h => of_not_not fun present => ?_, fun h => by rwa [State.lapseIfDue_absent h]⟩
  obtain ⟨c, found⟩ := Option.ne_none_iff_exists'.1 present
  by_cases lapses : c.due s.cc.openCycle = true ∧ c.openHolds = 0
  · obtain ⟨due, free⟩ := lapses
    rw [State.lapseIfDue_lapses found due free, State.lapseCard_findCard found] at h
    exact nomatch h
  · rw [State.lapseIfDue_stays found, found] at h
    · exact nomatch h
    · rwa [not_and_or, Bool.not_eq_true, ← ne_eq, ← Nat.pos_iff_ne_zero] at lapses

theorem State.findCard_of_lapseIfDue (h : (s.lapseIfDue n).findCard n = some c) : s.findCard n ≠ none := fun absent => by
  rw [State.lapseIfDue_findCard_none.2 absent] at h
  exact nomatch h

@[simp] theorem State.lapseIfDue_cc (s : State) (n : Nat) : (s.lapseIfDue n).cc = s.cc :=
  s.lapseIfDue_changes n .cycles (by decide)

/-- A till command runs its own checks on the record as the access test leaves it (R19). -/
theorem State.onCard_found (h : (s.lapseIfDue n).findCard n = some c) (f : State → Card → State × Reply) :
    s.onCard n f = f (s.lapseIfDue n) c := by
  obtain ⟨_, found⟩ := Option.ne_none_iff_exists'.1 (State.findCard_of_lapseIfDue h)
  simp only [State.onCard, found, h]

/-! ### The set that takes the balance of a lapsed record (R31) -/

theorem State.lapsesToSealing_of_unswept {k : Nat} (cursor : s.ct.cursor = some k) (h : c.sweepMark < s.cc.openCycle) :
    s.lapsesToSealing c = true := by
  simp [State.lapsesToSealing, cursor, h]

theorem State.lapsesToSealing_of_swept (h : s.ct.cursor = none ∨ s.cc.openCycle ≤ c.sweepMark) :
    s.lapsesToSealing c = false := by
  rcases h with none | swept
  · simp [State.lapsesToSealing, none]
  · simp [State.lapsesToSealing, swept]

/-- Settles O20: the access test in its three cases, and a lapse in its two. -/
theorem dueCardsLapse : Obligations.DueCardsLapse := by
  refine ⟨fun c o => ⟨c.due_iff o, c.lapsePending_iff o⟩, fun s n => ⟨State.lapseIfDue_absent, fun c found =>
    ⟨State.lapseIfDue_stays found, fun due free => ?_⟩⟩, fun s c => ⟨fun w k cursor unswept sealing => ?_, fun swept => ?_⟩⟩
  · have lapses := State.lapseIfDue_lapses found due free
    exact ⟨lapses, lapses ▸ State.lapseCard_findCard found⟩
  · simp only [State.lapseCard, State.lapsesToSealing_of_unswept cursor unswept, State.modCard_ct_sealOwn, sealing,
      ↓reduceIte]
    rfl
  · simp only [State.lapseCard, State.lapsesToSealing_of_swept swept]
    rfl

end Sys2Proof.Machine
end


section
/-! ## The till commands on own cards (R20 to R25)

Each command once it has reached its block, check by check; the statements add the tests of R180 before it. -/

namespace Sys2Proof.Machine

variable {s : State} {st : Settings} {n a o : Nat} {c : Card}

/-! ### ISSUE (R20, R21) -/

/-- The float-limit test on an amount above zero: the room below the limit (R7). -/
theorem floatAllows_iff {float : Int} (pos : 0 < a) : floatAllows st float a = true ↔ (a : Int) ≤ st.floatLimit - float := by
  unfold floatAllows
  split
  · exact decide_eq_true_iff
  · rw [beq_iff_eq]
    omega

theorem floatAllows_above {float : Int} (pos : 0 < a) (above : (st.floatLimit : Int) - float < a) :
    floatAllows st float a = false := by
  rw [← Bool.not_eq_true, floatAllows_iff pos]
  omega

theorem State.issue_zero {v : Nat} : s.issue st 0 v = (s, .refuse .amount) := if_pos rfl

theorem State.issue_ceiling {v : Nat} (pos : 0 < a) (high : st.cardCeiling < a) :
    s.issue st a v = (s, .refuse .ceiling) := by
  rw [State.issue, if_neg pos.ne', if_pos high]

theorem State.issue_floatLimit {v : Nat} (pos : 0 < a) (fits : a ≤ st.cardCeiling)
    (above : (st.floatLimit : Int) - s.ct.float < a) : s.issue st a v = (s, .plain .floatLimit) := by
  rw [State.issue, if_neg pos.ne', if_neg (by omega), floatAllows_above pos above]
  rfl

section Allowed

variable {v : Nat} (pos : 0 < a) (fits : a ≤ st.cardCeiling) (room : (a : Int) ≤ st.floatLimit - s.ct.float)

include pos fits room

theorem State.issue_tableFull (full : st.cardArea ≤ s.ct.cards.length) : s.issue st a v = (s, .plain .cardTableFull) := by
  rw [State.issue, if_neg pos.ne', if_neg fits.not_gt, (floatAllows_iff pos).2 room, if_neg (by decide), if_pos full]

variable (free : s.ct.cards.length < st.cardArea)

include free

theorem State.issue_exhausted (none : s.ct.serialNext = none) : s.issue st a v = (s, .plain .serialsExhausted) := by
  rw [State.issue, if_neg pos.ne', if_neg fits.not_gt, (floatAllows_iff pos).2 room, if_neg (by decide),
    if_neg free.not_ge, none]

theorem State.issue_done (next : s.ct.serialNext = some n) :
    s.issue st a v = s.issueCard st n a (appliedValidity v) := by
  rw [State.issue, if_neg pos.ne', if_neg fits.not_gt, (floatAllows_iff pos).2 room, if_neg (by decide),
    if_neg free.not_ge, next]

end Allowed

/-- ISSUE runs on the part as the command has begun on it. -/
theorem issue_says {t : Moment} {token : Token} {amount : AmountField} {validity : CycleField} {v : Nat} {u : State}
    {status : Status} {values : List Value} (h : tillReady s st) (ha : readCardAmount amount = some a)
    (hv : readCycle validity = some v) (run : (begun s t).issue st a v = (u, ⟨status, values⟩)) :
    exec (.issue t token amount validity) s = .next (finish (answered u token status values)) :=
  write_says h.1 h.2.2 ((withCycle_good hv _ _).trans ((enrolled_begun h t _).trans ((withAmount_good ha _ _).trans run)))

/-- Settles O17: the checks of R20 in their order, then the record. -/
theorem issueMakesACard : Obligations.IssueMakesACard := by
  intro s st t token amount validity a v h ha hv refused
  refine ⟨?_, fun high pos => ?_, fun pos fits above => ?_, fun pos fits room full => ?_, fun pos fits room free => ?_⟩
  · rintro rfl
    exact issue_says h ha hv State.issue_zero
  · exact issue_says h ha hv (State.issue_ceiling pos high)
  · exact issue_says h ha hv (State.issue_floatLimit pos fits above)
  · exact issue_says h ha hv (State.issue_tableFull (s := begun s t) pos fits room full)
  · refine ⟨fun none => issue_says h ha hv (State.issue_exhausted (s := begun s t) pos fits room free none),
      fun n next => issue_says h ha hv (State.issue_done (s := begun s t) pos fits room free next)⟩

/-! ### LOAD (R22) -/

theorem State.loadCard_eq (serial : c.serial = n) (cycle : s.cc.openCycle = o) :
    s.loadCard c a =
      (withCard s n (fun c => { c with balance := c.balance + a, lastChange := o }) (s.ct.float + a)
        { s.ct.life with loads := s.ct.life.loads.acc a } { s.ct.openOwn with s := s.ct.openOwn.s.acc a }
        (s.ct.life.loads.accSat a || s.ct.openOwn.s.accSat a),
        ⟨.ok, [.amount (c.balance + a), .amount c.held, .amount (c.balance + a - c.held)]⟩) := by
  subst serial cycle
  rfl

/-- LOAD runs on the card as the access test leaves it. -/
theorem load_says {t : Moment} {token : Token} {ref : RefField} {amount : AmountField} {u : State} {status : Status}
    {values : List Value} (h : tillReady s st) (hr : readRef ref = some ⟨st.station, n⟩)
    (ha : readCardAmount amount = some a) (run : (begun s t).load st n a = (u, ⟨status, values⟩)) :
    exec (.load t token ref amount) s = .next (finish (answered u token status values)) :=
  write_says h.1 h.2.2 ((named_begun h t hr _).trans ((withAmount_good ha _ _).trans ((if_pos rfl).trans run)))

section Load

variable (found : (s.lapseIfDue n).findCard n = some c)

include found

theorem State.load_zero : s.load st n 0 = (s.lapseIfDue n, .refuse .amount) := by
  rw [State.load, State.onCard_found found]
  exact if_pos rfl

theorem State.load_lapsePending (pos : 0 < a) (pending : c.lapsePending s.cc.openCycle = true) :
    s.load st n a = (s.lapseIfDue n, .refuse .cardLapsed) := by
  rw [State.load, State.onCard_found found, if_neg pos.ne', State.lapseIfDue_cc, if_pos pending]

/-- The refusals of LOAD by card state. -/
theorem State.load_refused {r : Reason} (pos : 0 < a) (notPending : c.lapsePending s.cc.openCycle = false)
    (refuses : c.state.refusesHold = some r) : s.load st n a = (s.lapseIfDue n, .refuse r) := by
  rw [State.load, State.onCard_found found, if_neg pos.ne', State.lapseIfDue_cc, notPending, if_neg Bool.false_ne_true]
  cases state : c.state <;> rw [state] at refuses <;> cases refuses <;> rfl

theorem State.load_lapsed (pos : 0 < a) (lapsed : c.state = .lapsed ∨ c.lapsePending s.cc.openCycle = true) :
    s.load st n a = (s.lapseIfDue n, .refuse .cardLapsed) := by
  cases pending : c.lapsePending s.cc.openCycle
  · have lapsed : c.state = .lapsed := lapsed.resolve_right (by simp [pending])
    exact State.load_refused found pos pending (by rw [lapsed]; rfl)
  · exact State.load_lapsePending found pos pending

theorem State.load_active (pos : 0 < a) (notPending : c.lapsePending s.cc.openCycle = false) (active : c.state = .active) :
    s.load st n a = if st.cardCeiling - c.balance < a then (s.lapseIfDue n, .refuse .ceiling)
      else if !floatAllows st (s.lapseIfDue n).ct.float a then (s.lapseIfDue n, .plain .floatLimit)
      else (s.lapseIfDue n).loadCard c a := by
  rw [State.load, State.onCard_found found, if_neg pos.ne', State.lapseIfDue_cc, notPending, if_neg Bool.false_ne_true,
    active]

end Load

/-! ### CASHOUT (R23) -/

theorem State.cashoutCard_eq (serial : c.serial = n) (cycle : s.cc.openCycle = o) :
    s.cashoutCard c =
      (withCard s n (fun c => { c with state := .closed, balance := 0, lastChange := o }) (s.ct.float - c.balance)
        { s.ct.life with cashouts := s.ct.life.cashouts.acc c.balance }
        { s.ct.openOwn with x := s.ct.openOwn.x.acc c.balance }
        (s.ct.life.cashouts.accSat c.balance || s.ct.openOwn.x.accSat c.balance), ⟨.ok, [.amount c.balance]⟩) := by
  subst serial cycle
  rfl

section Cashout

variable (found : (s.lapseIfDue n).findCard n = some c)

include found

theorem State.cashout_closed (closed : c.state = .closed) : s.cashout n = (s.lapseIfDue n, .refuse .cardClosed) := by
  rw [State.cashout, State.onCard_found found, if_pos closed]

theorem State.cashout_lapsed (lapsed : c.state = .lapsed ∨ c.lapsePending s.cc.openCycle = true) :
    s.cashout n = (s.lapseIfDue n, .refuse .cardLapsed) := by
  have notClosed := Card.not_closed_of_lapsed lapsed
  rw [State.cashout, State.onCard_found found, if_neg notClosed, State.lapseIfDue_cc, if_pos (by simpa using lapsed)]

theorem State.cashout_live (live : c.state = .active ∨ c.state = .frozen)
    (notPending : c.lapsePending s.cc.openCycle = false) :
    s.cashout n = if 0 < c.openHolds then (s.lapseIfDue n, .plain .cardHoldsOpen) else (s.lapseIfDue n).cashoutCard c := by
  obtain ⟨notClosed, notLapsed⟩ := Card.not_ended_of_live live
  rw [State.cashout, State.onCard_found found, if_neg notClosed, State.lapseIfDue_cc, if_neg (by simp [notLapsed, notPending])]

end Cashout

/-- A command of the Card Table runs on the card of its serial. -/
theorem ownCard_says {t : Moment} {token : Token} {ref : RefField} {f : Settings → Nat → Effect} {u : State}
    {status : Status} {values : List Value} (h : tillReady s st) (hr : readRef ref = some ⟨st.station, n⟩)
    (run : f st n (begun s t) = (u, ⟨status, values⟩)) :
    event t (State.write token (ownCard ref f)) s = .next (finish (answered u token status values)) :=
  write_says h.1 h.2.2 ((ownCard_home h t hr rfl f).trans run)

/-- Settles O18: the checks of R22 and R23 in their order, on the record the access test leaves. -/
theorem loadAndCashout : Obligations.LoadAndCashout := by
  intro s st t token ref n c h hr v o found
  replace found : ((begun s t).lapseIfDue n).findCard n = some c := found
  have serial : c.serial = n := (State.findCard_mem found).2
  have cycle : v.cc.openCycle = o := congrArg Cycles.openCycle (State.lapseIfDue_cc (begun s t) n)
  refine ⟨?_, ?_⟩
  · intro amount a ha run refused
    refine ⟨?_, fun pos lapsed => load_says h hr ha ?_, fun pos closed => load_says h hr ha ?_,
      fun pos frozen notPending => load_says h hr ha ?_, fun pos active notPending => ?_⟩
    · rintro rfl
      exact load_says h hr ha (State.load_zero found)
    · exact State.load_lapsed found pos lapsed
    · exact State.load_refused found pos (Card.not_lapsePending_of_closed closed) (by rw [closed]; rfl)
    · exact State.load_refused found pos notPending (by rw [frozen]; rfl)
    · have active := State.load_active (st := st) found pos notPending active
      refine ⟨fun high => load_says h hr ha (active.trans (if_pos high)), fun fits above => load_says h hr ha ?_,
        fun fits room => load_says h hr ha ?_⟩
      · exact active.trans ((if_neg fits.not_gt).trans (if_pos (by rw [floatAllows_above pos above]; rfl)))
      · refine active.trans ((if_neg fits.not_gt).trans ((if_neg ?_).trans (State.loadCard_eq serial cycle)))
        rw [(floatAllows_iff pos).2 room]
        decide
  · intro run refused
    refine ⟨fun closed => ownCard_says h hr (State.cashout_closed found closed),
      fun lapsed => ownCard_says h hr (State.cashout_lapsed found lapsed), fun live notPending => ?_⟩
    have live := State.cashout_live found live notPending
    exact ⟨fun held => ownCard_says h hr (live.trans (if_pos held)),
      fun free => ownCard_says h hr (live.trans ((if_neg (by omega)).trans (State.cashoutCard_eq serial cycle)))⟩

end Sys2Proof.Machine
end


section
/-! ## FREEZE, THAW and ENQUIRE on own cards (R24, R25) -/

namespace Sys2Proof.Machine

variable {s : State} {st : Settings} {n o : Nat} {c : Card}

section SetFrozen

variable (found : (s.lapseIfDue n).findCard n = some c)

include found

theorem State.setFrozen_closed (goal : CardState) (closed : c.state = .closed) :
    s.setFrozen n goal = (s.lapseIfDue n, .refuse .cardClosed) := by
  rw [State.setFrozen, State.onCard_found found, if_pos closed]

theorem State.setFrozen_lapsed (goal : CardState) (lapsed : c.state = .lapsed ∨ c.lapsePending s.cc.openCycle = true) :
    s.setFrozen n goal = (s.lapseIfDue n, .refuse .cardLapsed) := by
  rw [State.setFrozen, State.onCard_found found, if_neg (Card.not_closed_of_lapsed lapsed), State.lapseIfDue_cc,
    if_pos (by simpa using lapsed)]

theorem State.setFrozen_live (goal : CardState) (live : c.state = .active ∨ c.state = .frozen)
    (notPending : c.lapsePending s.cc.openCycle = false) :
    s.setFrozen n goal = if c.state = goal then (s.lapseIfDue n, ⟨.ok, [.num1 goal.code]⟩) else
      ((s.lapseIfDue n).modCard n fun c => { c with state := goal, lastChange := s.cc.openCycle },
        ⟨.ok, [.num1 goal.code]⟩) := by
  obtain ⟨notClosed, notLapsed⟩ := Card.not_ended_of_live live
  rw [State.setFrozen, State.onCard_found found, if_neg notClosed, State.lapseIfDue_cc,
    if_neg (by simp [notLapsed, notPending])]

end SetFrozen

/-- The change of one card record as the change of a record with every total as it was. -/
theorem State.modCard_eq_withCard (s : State) (n : Nat) (f : Card → Card) :
    s.modCard n f = withCard s n f s.ct.float s.ct.life s.ct.openOwn false := by
  simp only [withCard, Bool.or_false]
  rfl

/-- Settles O19: FREEZE and THAW are one operation with two goals; ENQUIRE changes nothing after the access test. -/
theorem freezeThawAndEnquire : Obligations.FreezeThawAndEnquire := by
  intro s st t token ref n c h hr v o found turned answers
  replace found : ((begun s t).lapseIfDue n).findCard n = some c := found
  have freezes {u status values} (run : (begun s t).setFrozen n .frozen = (u, ⟨status, values⟩)) :
      answers (.freeze t token ref) u status values := ownCard_says (f := fun _ n s => s.setFrozen n .frozen) h hr run
  have thaws {u status values} (run : (begun s t).setFrozen n .active = (u, ⟨status, values⟩)) :
      answers (.thaw t token ref) u status values := ownCard_says (f := fun _ n s => s.setFrozen n .active) h hr run
  have turns (goal : CardState) : (v.modCard n fun c => { c with state := goal, lastChange := o }) = turned goal :=
    v.modCard_eq_withCard n _
  refine ⟨fun active notPending => ⟨freezes ?_, thaws ?_⟩, fun frozen notPending => ⟨thaws ?_, freezes ?_⟩,
    fun closed => ⟨freezes (State.setFrozen_closed found _ closed), thaws (State.setFrozen_closed found _ closed)⟩,
    fun lapsed => ⟨freezes (State.setFrozen_lapsed found _ lapsed), thaws (State.setFrozen_lapsed found _ lapsed)⟩, ?_⟩
  · rw [← turns, State.setFrozen_live found _ (.inl active) notPending, if_neg (by rw [active]; nofun)]
    rfl
  · exact (State.setFrozen_live found _ (.inl active) notPending).trans (if_pos active)
  · rw [← turns, State.setFrozen_live found _ (.inr frozen) notPending, if_neg (by rw [frozen]; nofun)]
    rfl
  · exact (State.setFrozen_live found _ (.inr frozen) notPending).trans (if_pos frozen)
  · refine write_says h.1 h.2.2 ((named_begun h t hr _).trans ((if_pos rfl).trans ?_))
    rw [State.enquireOwn, State.onCard_found found, State.lapseIfDue_cc]
    rfl

end Sys2Proof.Machine
end


section
/-! ## A hold asked for (R43 to R48, R57)

Checks 6 to 9 of R43 on the record the access test leaves, once for an ASK from a peer and an AUTHORIZE at the till. -/

namespace Sys2Proof.Machine

variable {s : State} {st : Settings} {n asked least g r x o : Nat} {asker : Nat} {askTag : Option Nat} {c : Card}

/-! ### Checks 7 to 9 and the grant -/

theorem State.grantOn_probe : s.grantOn st asker askTag c 0 least =
    (s, .probe (c.balance - c.held) c.balance c.expiry) := by
  rw [State.grantOn, if_neg (fun h => h.1 rfl), grantOf_probe]

theorem State.grantOn_full (pos : 0 < asked) (full : 4 ≤ c.openHolds) :
    s.grantOn st asker askTag c asked least = (s, .refused .cardHoldsFull 0) := if_pos ⟨pos.ne', full⟩

theorem State.grantOn_funds (room : c.openHolds < 4) (funds : grantOf asked least (c.balance - c.held) = .funds asked x) :
    s.grantOn st asker askTag c asked least = (s, .refused .funds x) := by
  rw [State.grantOn, if_neg (fun h => room.not_ge h.2), funds]

theorem State.grantOn_noCell (room : c.openHolds < 4)
    (funds : grantOf asked least (c.balance - c.held) = .granted g r x) (noCell : s.takeCell st = none) :
    s.grantOn st asker askTag c asked least = (s, .refused .holdTableFull 0) := by
  rw [State.grantOn, if_neg (fun h => room.not_ge h.2), funds]
  simp only [noCell]

theorem State.grantOn_granted {w : State} (room : c.openHolds < 4)
    (funds : grantOf asked least (c.balance - c.held) = .granted g r x) (cell : s.takeCell st = some w) :
    s.grantOn st asker askTag c asked least =
      (w.makeHold st asker askTag c.serial asked least g,
        .granted w.newHoldId g r (c.balance - (c.held + g)) c.balance c.expiry) := by
  rw [State.grantOn, if_neg (fun h => room.not_ge h.2), funds]
  simp only [cell]

/-! ### Check 6 -/

theorem State.requestHold_absent {home : Nat} (absent : home ≠ st.station ∨ s.findCard n = none) :
    s.requestHold st asker askTag home n asked least = (s, .refused .unknownCard 0) := by
  rcases absent with away | absent
  · exact if_pos away
  · unfold State.requestHold
    rw [absent]
    exact ite_self _

section RequestHold

variable (found : (s.lapseIfDue n).findCard n = some c)

include found

theorem State.requestHold_lapsePending (pending : c.lapsePending s.cc.openCycle = true) :
    s.requestHold st asker askTag st.station n asked least = (s.lapseIfDue n, .refused .cardLapsed 0) := by
  obtain ⟨_, before⟩ := Option.ne_none_iff_exists'.1 (State.findCard_of_lapseIfDue found)
  rw [State.requestHold, if_neg (not_not.2 rfl), before]
  simp only [found, State.lapseIfDue_cc, pending, if_true]

theorem State.requestHold_refused {r : Reason} (notPending : c.lapsePending s.cc.openCycle = false)
    (refuses : c.state.refusesHold = some r) :
    s.requestHold st asker askTag st.station n asked least = (s.lapseIfDue n, .refused r 0) := by
  obtain ⟨_, before⟩ := Option.ne_none_iff_exists'.1 (State.findCard_of_lapseIfDue found)
  rw [State.requestHold, if_neg (not_not.2 rfl), before]
  simp only [found, State.lapseIfDue_cc, notPending, Bool.false_eq_true, if_false, refuses]

theorem State.requestHold_active (notPending : c.lapsePending s.cc.openCycle = false) (active : c.state = .active) :
    s.requestHold st asker askTag st.station n asked least =
      (s.lapseIfDue n).grantOn st asker askTag c asked least := by
  obtain ⟨_, before⟩ := Option.ne_none_iff_exists'.1 (State.findCard_of_lapseIfDue found)
  rw [State.requestHold, if_neg (not_not.2 rfl), before]
  simp only [found, State.lapseIfDue_cc, notPending, Bool.false_eq_true, if_false, active, CardState.refusesHold]

theorem State.requestHold_lapsed (lapsed : c.state = .lapsed ∨ c.lapsePending s.cc.openCycle = true) :
    s.requestHold st asker askTag st.station n asked least = (s.lapseIfDue n, .refused .cardLapsed 0) := by
  cases pending : c.lapsePending s.cc.openCycle
  · have lapsed : c.state = .lapsed := lapsed.resolve_right (by simp [pending])
    exact State.requestHold_refused found pending (by rw [lapsed]; rfl)
  · exact State.requestHold_lapsePending found pending

theorem State.requestHold_closed (closed : c.state = .closed) :
    s.requestHold st asker askTag st.station n asked least = (s.lapseIfDue n, .refused .cardClosed 0) :=
  State.requestHold_refused found (Card.not_lapsePending_of_closed closed) (by rw [closed]; rfl)

theorem State.requestHold_frozen (notPending : c.lapsePending s.cc.openCycle = false) (frozen : c.state = .frozen) :
    s.requestHold st asker askTag st.station n asked least = (s.lapseIfDue n, .refused .cardFrozen 0) :=
  State.requestHold_refused found notPending (by rw [frozen]; rfl)

end RequestHold

/-! ### The hold that is made (R47, R49) -/

/-- A hold of the own till touches no peer's sum. -/
theorem State.makeHold_own (w : State) (serial : Nat) :
    w.makeHold st st.station askTag serial asked least g =
      { w with
        ct := { w.ct with cards := w.ct.cards.map fun c => if c.serial == serial then c.grant g else c }
        ht := { w.ht with
          holds := w.ht.holds ++
            [newHold w.newHoldId serial st.station askTag asked least g (w.now + st.holdLifetime * 1000000)]
          openCount := w.ht.openCount + 1
          nextId := nextInRing Config.idMax w.newHoldId } } := by
  simp only [State.makeHold, bne_self_eq_false, Bool.false_eq_true, if_false]
  rfl

/-- A peer's hold raises its count and its held sum; its exposure is formed after it. -/
theorem State.makeHold_peer (w : State) (serial : Nat) (peer : asker ≠ st.station) :
    w.makeHold st asker askTag serial asked least g =
      { w with
        ct := { w.ct with cards := w.ct.cards.map fun c => if c.serial == serial then c.grant g else c }
        ht :=
          { holds := w.ht.holds ++
              [newHold w.newHoldId serial asker askTag asked least g (w.now + st.holdLifetime * 1000000)]
            openCount := w.ht.openCount + 1
            peerOpenCount := w.ht.peerOpenCount + 1
            endList := w.ht.endList
            peerHeld := w.ht.peerHeld.map fun y => if y.peer == asker then { y with sum := y.sum + g } else y
            nextId := nextInRing Config.idMax w.newHoldId } : State }.formExposure st asker := by
  simp only [State.makeHold, bne_iff_ne.2 peer, if_true]
  rfl

/-! ### AUTHORIZE at the own till (R57) -/

theorem State.authorizeOwn_open {u : State} {answer : HoldAnswer} (running : stopped s = false)
    (open_ : s.lc.station ≠ .draining) (run : s.requestHold st st.station none st.station n asked least = (u, answer)) :
    s.authorizeOwn st n asked least = (u, answer.reply) := by
  rw [State.authorizeOwn, if_neg (by simp [running]), if_neg open_, run]

theorem State.takeCell_now {w : State} (h : s.takeCell st = some w) : w.now = s.now :=
  State.takeCell_changes s w st h .now (by decide)

theorem State.lapseIfDue_now (s : State) (n : Nat) : (s.lapseIfDue n).now = s.now :=
  s.lapseIfDue_changes n .now (by decide)

/-- Settles O21: the two checks of its own, then those of R43 from the sixth on. -/
theorem localAuthorize : Obligations.LocalAuthorize := by
  intro s st t token ref asked least n a l h hr ha hl forms run refused v o
  have gives {u status values} (ran : (begun s t).authorizeOwn st n a (leastAsRead a l) = (u, ⟨status, values⟩)) :
      run = .next (finish (answered u token status values)) := by
    refine write_says h.1 h.2.2 ((named_begun h t hr _).trans ((withAmount_good ha _ _).trans ((withAmount_good hl _ _).trans ?_)))
    rw [if_neg (by simp [formsRequest, forms]), if_pos rfl]
    exact ran
  refine ⟨fun halted => gives (if_pos halted), fun running draining => gives ?_, fun running open_ => ?_⟩
  · have running : ¬ stopped (begun s t) = true := Bool.not_eq_true _ ▸ running
    exact (if_neg running).trans (if_pos draining)
  have gives {u answer status values}
      (ran : (begun s t).requestHold st st.station none st.station n a (leastAsRead a l) = (u, answer))
      (reply : answer.reply = ⟨status, values⟩) : run = .next (finish (answered u token status values)) :=
    gives (reply ▸ State.authorizeOwn_open (s := begun s t) running open_ ran)
  refine ⟨fun absent => gives (State.requestHold_absent (s := begun s t) (.inr absent)) rfl, fun c found => ?_⟩
  replace found : ((begun s t).lapseIfDue n).findCard n = some c := found
  refine ⟨fun lapsed => gives (State.requestHold_lapsed found lapsed) rfl,
    fun closed => gives (State.requestHold_closed found closed) rfl,
    fun frozen notPending => gives (State.requestHold_frozen found notPending frozen) rfl,
    fun active notPending => ?_⟩
  have gives {u answer status values} (ran : v.grantOn st st.station none c a (leastAsRead a l) = (u, answer))
      (reply : answer.reply = ⟨status, values⟩) : run = .next (finish (answered u token status values)) :=
    gives ((State.requestHold_active found notPending active).trans ran) reply
  refine ⟨?_, fun pos full => gives (State.grantOn_full pos full) rfl, fun x room funds => gives (State.grantOn_funds room funds) rfl,
    fun g r x room funds => ⟨fun noCell => gives (State.grantOn_noCell room funds noCell) rfl, fun w cell => ?_⟩⟩
  · rintro rfl
    exact gives State.grantOn_probe rfl
  · have now : w.now = max s.now t := (State.takeCell_now cell).trans (State.lapseIfDue_now _ n)
    have serial : c.serial = n := (State.findCard_mem found).2
    rw [gives (State.grantOn_granted room funds cell) rfl, serial, State.makeHold_own, now]
    rfl

end Sys2Proof.Machine
end


section
/-! ## ASKs from peers (R43 to R49) -/

namespace Sys2Proof.Machine

variable {s : State} {st : Settings} {asker tag home n asked least : Nat}

/-- A search finds the first record that passes. -/
theorem find?_first {α : Type} {p : α → Bool} {l before after : List α} {x : α} (split : l = before ++ x :: after)
    (earlier : ∀ y ∈ before, ¬p y = true) (here : p x = true) : l.find? p = some x :=
  List.find?_eq_some_iff_append.2 ⟨here, before, after, split, fun y hy => by simpa using earlier y hy⟩

/-- What a search by a test answers, in the words of the test. -/
theorem find?_spec {α : Type} {p : α → Bool} {q : α → Prop} (test : ∀ x, p x = true ↔ q x) (l : List α) :
    ((∀ x ∈ l, ¬q x) → l.find? p = none) ∧
      ∀ before x after, l = before ++ x :: after → (∀ y ∈ before, ¬q y) → q x → l.find? p = some x :=
  ⟨fun none => List.find?_eq_none.2 fun x hx => (test x).not.2 (none x hx), fun _ x _ split earlier here =>
    find?_first split (fun y hy => (test y).not.2 (earlier y hy)) ((test x).2 here)⟩

/-- What R44 asks of the record a resent ASK is answered from. -/
theorem openAsk_iff (h : Hold) : (h.state == .held && h.asker == asker && h.askTag == some tag) = true ↔
    h.state = .held ∧ h.asker = asker ∧ h.askTag = some tag := by
  simp only [Bool.and_eq_true, beq_iff_eq, and_assoc]

/-- An ASK addressed to this station is served in the state that has heard it, and answered. -/
theorem ask_says {t : Moment} {h : RxHeader} {g : Header} {ref : RefField} {askedField leastField : AmountField} {w : State}
    {b : Body} (hl : lineReady s st) (hf : addressed st h g)
    (hr : (RawBody.ask ref askedField leastField).read = some (.ask home n asked least))
    (ran : (heardFrom s st t g).serveAsk st g.source g.tag home n asked least = (w, b)) :
    exec (.askReceived t h ref askedField leastField) s =
      .next (finish (w.offerAnswer ⟨g.source, g.tag, b⟩).drainTest) := by
  refine (hearKind_addressed hl hf t hr nofun nofun nofun).trans ?_
  rw [State.handOver, State.onAsk, ran]
  rfl

/-! ### Checks 1 to 5 (R43) -/

/-- A peer in good or watched standing is not barred (R43 check 3). -/
theorem not_barred {x : Standing} (standing : x = .good ∨ x = .watch) : ¬(x = .barred ∨ x = .recheck) := by
  rcases standing with rfl | rfl <;> simp

theorem State.serveAsk_stopped (halted : stopped s = true) :
    s.serveAsk st asker tag home n asked least = (s, .refuse 0x10 .stationStopped 0) := if_pos halted

theorem State.serveAsk_draining (running : stopped s = false) (draining : s.lc.station = .draining) :
    s.serveAsk st asker tag home n asked least = (s, .refuse 0x10 .draining 0) := by
  rw [State.serveAsk, running, if_neg Bool.false_ne_true, if_pos draining]
  rfl

section Active

variable (running : stopped s = false) (active : s.lc.station = .active)

include running active

theorem State.serveAsk_barred (barred : (s.peer asker).standing = .barred ∨ (s.peer asker).standing = .recheck) :
    s.serveAsk st asker tag home n asked least = (s, .refuse 0x10 .peerBarred 0) := by
  rw [State.serveAsk, running, if_neg Bool.false_ne_true, if_neg (by rw [active]; nofun), if_pos barred]
  rfl

section Standing

variable (standing : (s.peer asker).standing = .good ∨ (s.peer asker).standing = .watch)

include standing

theorem State.serveAsk_tripped (tripped : (s.peer asker).tripped = true) :
    s.serveAsk st asker tag home n asked least = (s, .refuse 0x10 .exposure 0) := by
  simp only [State.serveAsk, running, active, not_barred standing, tripped, Bool.false_eq_true, if_false, if_true,
    reduceCtorEq]
  rfl

section Untripped

variable (untripped : (s.peer asker).tripped = false)

include untripped

/-- An ASK whose tag an OPEN record of its sender has (R44). -/
theorem State.serveAsk_resent {k : Hold} (pos : 0 < asked) (made : s.openAsk asker tag = some k) :
    s.serveAsk st asker tag home n asked least =
      if k.serial = n ∧ k.asked = asked ∧ k.least = least then (s, s.repeatGrant k)
      else (s.protocolFault asker, refuseBody kindAsk .tagConflict 0) := by
  simp only [State.serveAsk, running, active, not_barred standing, untripped, Bool.false_eq_true, if_false, reduceCtorEq,
    pos.ne', made]

/-- An ASK that is new is served from the sixth check on. -/
theorem State.serveAsk_new {u : State} {answer : HoldAnswer} (new : asked = 0 ∨ s.openAsk asker tag = none)
    (ran : s.requestHold st asker (some tag) home n asked least = (u, answer)) :
    s.serveAsk st asker tag home n asked least = (u, answer.body) := by
  have none : (if asked = 0 then none else s.openAsk asker tag) = none := by
    rcases new with probe | unmade
    · exact if_pos probe
    · rw [unmade, ite_self]
  simp only [State.serveAsk, running, active, not_barred standing, untripped, Bool.false_eq_true, if_false, reduceCtorEq,
    none, ran]

end Untripped
end Standing
end Active

/-- Settles O30: the checks of R43 in their order; the resend of R44 is found by source and tag. -/
theorem askRefusedOrRepeated : Obligations.AskRefusedOrRepeated := by
  refine ⟨fun s asker tag => find?_spec openAsk_iff s.ht.holds,
    fun s st t h g ref askedField leastField home n a l hl hf hr => ?_⟩
  intro u v e run refused
  have gives {w b} (ran : u.serveAsk st g.source g.tag home n a l = (w, b)) :
      run = .next (finish (w.offerAnswer ⟨g.source, g.tag, b⟩).drainTest) := ask_says hl hf hr ran
  clear_value u run
  refine ⟨fun halted => gives (State.serveAsk_stopped halted),
    fun running draining => gives (State.serveAsk_draining running draining), fun running active =>
    ⟨fun barred => gives (State.serveAsk_barred running active barred), fun standing =>
    ⟨fun tripped => gives (State.serveAsk_tripped running active standing tripped), fun untripped =>
    ⟨fun k pos made => ?_, fun new => ?_⟩⟩⟩⟩
  · have resent := State.serveAsk_resent (st := st) (home := home) (n := n) (least := l) running active standing untripped
      pos made
    refine ⟨?_, fun differs => gives (resent.trans (if_neg (by omega)))⟩
    rintro ⟨rfl, rfl, rfl⟩
    exact gives (resent.trans (if_pos ⟨rfl, rfl, rfl⟩))
  have gives {w answer b} (ran : u.requestHold st g.source (some g.tag) home n a l = (w, answer)) (answers : answer.body = b) :
      run = .next (finish (w.offerAnswer ⟨g.source, g.tag, b⟩).drainTest) :=
    gives (answers ▸ State.serveAsk_new running active standing untripped new ran)
  refine ⟨fun absent => gives (State.requestHold_absent absent) rfl, ?_⟩
  rintro c rfl found
  replace found : (u.lapseIfDue n).findCard n = some c := found
  refine ⟨fun lapsed => gives (State.requestHold_lapsed found lapsed) rfl,
    fun closed => gives (State.requestHold_closed found closed) rfl,
    fun frozen notPending => gives (State.requestHold_frozen found notPending frozen) rfl, fun active notPending => ?_⟩
  have gives {w answer b} (ran : v.grantOn st g.source (some g.tag) c a l = (w, answer)) (answers : answer.body = b) :
      run = .next (finish (w.offerAnswer ⟨g.source, g.tag, b⟩).drainTest) :=
    gives ((State.requestHold_active found notPending active).trans ran) answers
  exact ⟨fun pos full => gives (State.grantOn_full pos full) rfl, fun x room funds => gives (State.grantOn_funds room funds) rfl,
    fun x r y room funds noCell => gives (State.grantOn_noCell room funds noCell) rfl⟩

/-- Settles O29: an ASK that no check of R43 refuses. -/
theorem askMakesAHold : Obligations.AskMakesAHold := by
  intro s st t h g ref askedField leastField n a l c hl hf hr u v run running station standing untripped new found active
    notPending
  replace found : (u.lapseIfDue n).findCard n = some c := found
  have gives {w answer b} (ran : v.grantOn st g.source (some g.tag) c a l = (w, answer)) (answers : answer.body = b) :
      run = .next (finish (w.offerAnswer ⟨g.source, g.tag, b⟩).drainTest) :=
    ask_says hl hf hr (answers ▸ State.serveAsk_new running station standing untripped new
      ((State.requestHold_active found notPending active).trans ran))
  clear_value u run
  refine ⟨?_, fun x r y w pos room funds cell => ?_⟩
  · rintro rfl
    exact gives State.grantOn_probe rfl
  · have now : w.now = u.now := (State.takeCell_now cell).trans (State.lapseIfDue_now u n)
    have serial : c.serial = n := (State.findCard_mem found).2
    have peer : g.source ≠ st.station := hf.1.2
    intro id made
    subst made
    rw [gives (State.grantOn_granted room funds cell) rfl, serial, State.makeHold_peer w n peer, now]
    rfl

end Sys2Proof.Machine
end


section
/-! ## Captures (R52 to R55, R58, R65, R67)

A capture as the model's `captured`, with the booking of an own hold or of a peer's; then CAPTURE at the till and TAKE
from a peer. -/

namespace Sys2Proof.Machine

variable {s : State} {st : Settings} {h : Hold} {room : List TrailEntry} {tag : Option Nat} {n x : Nat} {c : Card}

/-! ### The capture of an OPEN record -/

theorem State.findCard_congr {t : State} (cards : t.ct.cards = s.ct.cards) : t.findCard n = s.findCard n := by
  rw [State.findCard, cards]
  rfl

/-- The capture of an own hold is booked to U. -/
theorem State.captureHold_own (own : h.asker = st.station) :
    s.captureHold st h room tag x =
      { captured s h room tag x with
        ct := { (captured s h room tag x).ct with openOwn := { s.ct.openOwn with u := s.ct.openOwn.u.acc x } }
        mu := { s.mu with
          saturation := s.mu.saturation || (s.ct.life.captures.accSat x || s.ct.openOwn.u.accSat x) } } := by
  simp only [State.captureHold, State.endHold, own, bne_self_eq_false, Bool.false_eq_true, if_false]
  rw [← own]
  rfl

/-- The capture of a peer's hold ends it for the peer, and is booked to the peer's L. -/
theorem State.captureHold_peer (peer : h.asker ≠ st.station) :
    s.captureHold st h room tag x =
      { captured s h room tag x with
        ht := { (captured s h room tag x).ht with
          peerOpenCount := s.ht.peerOpenCount - 1
          peerHeld := s.ht.peerHeld.map fun y =>
            if y.peer == h.asker then { y with sum := y.sum - h.amount } else y }
        mu := { s.mu with saturation := s.mu.saturation || s.ct.life.captures.accSat x } : State }.bookLiability
          st h.asker x := by
  simp only [State.captureHold, State.endHold, bne_iff_ne.2 peer, if_true, State.cardCapture, Bool.not_true,
    Bool.false_and, Bool.or_false]
  rfl

theorem State.captureHold_cards :
    (s.captureHold st h room tag x).ct.cards =
      (s.modCard h.serial fun c => c.capture x h.amount s.cc.openCycle).ct.cards := by
  by_cases own : h.asker = st.station
  · rw [State.captureHold_own own]
    rfl
  · rw [State.captureHold_peer own]
    exact State.bookLiability_changes _ _ _ _ .cards (by decide)

theorem State.captureOpen_amount (bad : x = 0 ∨ h.amount < x) : s.captureOpen st h tag x = (s, .refused .amount) :=
  if_pos bad

theorem State.captureOpen_full (pos : 1 ≤ x) (fits : x ≤ h.amount) (full : s.trailRoom st = none) :
    s.captureOpen st h tag x = (s, .refused .trailFull) := by
  rw [State.captureOpen, if_neg (by omega), full]

/-- The balance answered is the card's after the capture, before the lapse of R33. -/
theorem State.captureOpen_done (pos : 1 ≤ x) (fits : x ≤ h.amount) (free : s.trailRoom st = some room)
    (found : s.findCard h.serial = some c) :
    s.captureOpen st h tag x =
      ((s.captureHold st h room tag x).lapseIfDue h.serial,
        .taken s.tr.nextNumber x (h.amount - x) s.cc.openCycle (c.balance - x)) := by
  have after : (s.captureHold st h room tag x).findCard h.serial = some (c.capture x h.amount s.cc.openCycle) :=
    (State.findCard_congr State.captureHold_cards).trans (State.findCard_modCard (fun _ => rfl) found)
  rw [State.captureOpen, if_neg (by omega), free]
  simp only [State.cardFigures_found after]
  rfl

/-! ### The record named, the room of the trail, the entry sought -/

theorem matchHold_iff {id asker serial : Nat} (h : Hold) :
    (h.id == id && h.asker == asker && h.serial == serial) = true ↔ h.id = id ∧ h.asker = asker ∧ h.serial = serial := by
  simp only [Bool.and_eq_true, beq_iff_eq, and_assoc]

theorem searchTrail_iff {redeemer tag serial : Nat} (e : TrailEntry) :
    (e.redeemer == redeemer && e.captureTag == some tag && e.serial == serial) = true ↔
      e.redeemer = redeemer ∧ e.captureTag = some tag ∧ e.serial = serial := by
  simp only [Bool.and_eq_true, beq_iff_eq, and_assoc]

theorem State.matchHold_names {id asker serial : Nat} (named : s.matchHold id asker serial = some h) :
    h.id = id ∧ h.asker = asker ∧ h.serial = serial := by
  have passes := List.find?_some named
  exact (matchHold_iff h).1 passes

theorem State.trailRoom_head {e : TrailEntry} {rest : List TrailEntry} (entries : s.tr.entries = e :: rest)
    (all : st.trailArea ≤ s.tr.entries.length) :
    s.trailRoom st = if s.cc.isCurrent e.booking then none else some rest := by
  rw [State.trailRoom, if_neg all.not_gt, entries]

/-! ### CAPTURE at the own till (R58) -/

/-- Settles O23: the record named by id, station and serial; the capture of an own hold. -/
theorem localCapture : Obligations.LocalCapture := by
  intro s st t token ref holdId amount n x hs hr ha run refused
  have gives {u answer status values} (ran : (begun s t).captureOwn st n holdId.toNat x = (u, answer))
      (reply : answer.reply = ⟨status, values⟩) : run = .next (finish (answered u token status values)) := by
    refine write_says hs.1 hs.2.2 ((named_begun hs t hr _).trans ((withAmount_good ha _ _).trans ((if_pos rfl).trans ?_)))
    rw [ran, ← reply]
  refine ⟨fun unknown => gives (answer := .refused .unknownHold) ?_ rfl, fun h named => ?_⟩
  · rw [State.captureOwn, show (begun s t).matchHold holdId.toNat st.station n = none from unknown]
  obtain ⟨-, own, serial⟩ := State.matchHold_names named
  have matched : (begun s t).captureOwn st n holdId.toNat x =
      if h.state = .held then (begun s t).captureOpen st h none x else (begun s t, .refused .holdEnded) := by
    rw [State.captureOwn, show (begun s t).matchHold holdId.toNat st.station n = some h from named]
  refine ⟨fun ended => gives (matched.trans (if_neg ended)) rfl,
    fun held bad => gives (matched.trans ((if_pos held).trans (State.captureOpen_amount bad))) rfl,
    fun held pos fits full => gives (matched.trans ((if_pos held).trans (State.captureOpen_full pos fits full))) rfl,
    fun room c held pos fits free found => ?_⟩
  have found : (begun s t).findCard h.serial = some c := serial ▸ found
  rw [gives (matched.trans ((if_pos held).trans (State.captureOpen_done pos fits free found))) rfl,
    State.captureHold_own own, serial]
  rfl

/-! ### TAKE from a peer (R52 to R54) -/

section Take

variable {asker reqTag id : Nat}

theorem State.serveTake_unknown (unmatched : s.matchHold id asker n = none) (unsought : s.searchTrail asker reqTag n = none) :
    s.serveTake st asker reqTag id n x = (s, .refused .unknownHold) := by
  rw [State.serveTake, unmatched]
  simp only [unsought]

theorem State.serveTake_trail {e : TrailEntry} (unmatched : s.matchHold id asker n = none)
    (sought : s.searchTrail asker reqTag n = some e) :
    s.serveTake st asker reqTag id n x =
      (s.lapseIfDue n, .taken e.number e.captured 0 e.booking ((s.lapseIfDue n).cardFigures n).1) := by
  rw [State.serveTake, unmatched]
  simp only [sought]

variable (named : s.matchHold id asker n = some h)

include named

theorem State.serveTake_ended (ended : h.state = .freed ∨ h.state = .lapsed) :
    s.serveTake st asker reqTag id n x = (s, .refused .holdEnded) := by
  rw [State.serveTake, named]
  rcases ended with ended | ended <;> simp only [ended]

theorem State.serveTake_otherTag (taken : h.state = .captured) (other : h.captureTag ≠ some reqTag) :
    s.serveTake st asker reqTag id n x = (s, .refused .holdEnded) := by
  rw [State.serveTake, named]
  simp only [taken, if_neg other]

theorem State.serveTake_repeated {y k b : Nat} (taken : h.state = .captured) (sameTag : h.captureTag = some reqTag)
    (amount : h.captured = some y) (number : h.trailNo = some k) (booking : h.booking = some b) :
    s.serveTake st asker reqTag id n x =
      (s.lapseIfDue n, .taken k y (h.amount - y) b ((s.lapseIfDue n).cardFigures n).1) := by
  rw [State.serveTake, named]
  simp only [taken, if_pos sameTag, amount, number, booking, Option.getD_some]

theorem State.serveTake_held (held : h.state = .held) :
    s.serveTake st asker reqTag id n x = s.captureOpen st h (some reqTag) x := by
  rw [State.serveTake, named]
  simp only [held]

end Take

/-- A TAKE addressed to this station is served in the state that has heard it, and answered. -/
theorem take_says {t : Moment} {hd : RxHeader} {g : Header} {holdId : Num2Field} {serial : Digits8Field}
    {amount : AmountField} {i : Nat} {w : State} {answer : CaptureAnswer} {b : Body} (hl : lineReady s st)
    (hf : addressed st hd g) (hr : (RawBody.take holdId serial amount).read = some (.take i n x))
    (ran : (heardFrom s st t g).serveTake st g.source g.tag i n x = (w, answer)) (body : answer.body = b) :
    exec (.takeReceived t hd holdId serial amount) s =
      .next (finish (w.offerAnswer ⟨g.source, g.tag, b⟩).drainTest) := by
  refine (hearKind_addressed hl hf t hr nofun nofun nofun).trans ?_
  rw [State.handOver, State.onTake, ran, ← body]
  rfl

/-- Settles O31: what the searches find, and a TAKE by the state of the record it names. -/
theorem takeCapturesTheHold : Obligations.TakeCapturesTheHold := by
  refine ⟨fun s id asker serial => find?_spec matchHold_iff s.ht.holds, fun s st => ?_, fun s redeemer tag serial => ?_,
    fun s st t hd g holdId serial amount i n x hl hf hr => ?_⟩
  · intro current
    refine ⟨fun free => if_pos free, fun e rest entries all => ⟨fun stays => ?_, fun leaves => ?_⟩⟩
    · exact (State.trailRoom_head entries all).trans (if_pos ((Cycles.isCurrent_iff _ _).2 stays))
    · exact (State.trailRoom_head entries all).trans (if_neg ((Cycles.isCurrent_iff _ _).not.2 leaves))
  · obtain ⟨absent, first⟩ := find?_spec (searchTrail_iff (redeemer := redeemer) (tag := tag) (serial := serial))
      s.tr.entries.reverse
    refine ⟨fun none => absent fun e he => none e (List.mem_reverse.1 he), fun before e after split here later =>
      first after.reverse e before.reverse ?_ (fun y hy => later y (List.mem_reverse.1 hy)) here⟩
    rw [split, List.reverse_append, List.reverse_cons, List.append_assoc, List.singleton_append]
  intro u run refused
  have gives {w answer b} (ran : u.serveTake st g.source g.tag i n x = (w, answer)) (body : answer.body = b) :
      run = .next (finish (w.offerAnswer ⟨g.source, g.tag, b⟩).drainTest) := take_says hl hf hr ran body
  clear_value u run
  refine ⟨fun unmatched unsought => gives (State.serveTake_unknown unmatched unsought) rfl,
    fun e unmatched sought => gives (State.serveTake_trail unmatched sought) rfl, fun h named => ?_⟩
  have held (held : h.state = .held) := State.serveTake_held (st := st) (reqTag := g.tag) (x := x) named held
  obtain ⟨-, asker, serial⟩ := State.matchHold_names named
  refine ⟨fun ended => gives (State.serveTake_ended named ended) rfl,
    fun taken other => gives (State.serveTake_otherTag named taken other) rfl,
    fun y k b taken sameTag amount number booking =>
      gives (State.serveTake_repeated named taken sameTag amount number booking) rfl,
    fun isHeld bad => gives ((held isHeld).trans (State.captureOpen_amount bad)) rfl,
    fun isHeld pos fits full => gives ((held isHeld).trans (State.captureOpen_full pos fits full)) rfl,
    fun room c isHeld pos fits free found => ?_⟩
  have peer : h.asker ≠ st.station := asker ▸ hf.1.2
  have found : u.findCard h.serial = some c := serial ▸ found
  rw [gives ((held isHeld).trans (State.captureOpen_done pos fits free found)) rfl, State.captureHold_peer peer, serial,
    asker]
  rfl

end Sys2Proof.Machine
end


section
/-! ## Holds that end without capture (R50, R56, R59) -/

namespace Sys2Proof.Machine

variable {s : State} {st : Settings} {h : Hold} {goal : HoldState} {n : Nat} {c : Card}

/-! ### The release of an OPEN record -/

theorem State.releaseHold_own (own : h.asker = st.station) : s.releaseHold st h goal = released s h goal := by
  simp only [State.releaseHold, State.afterPeerEnd, State.endHold, own, bne_self_eq_false, Bool.false_eq_true, if_false]
  rfl

/-- The end of a peer's hold lowers its count and its held sum; its exposure is formed after it. -/
theorem State.releaseHold_peer (peer : h.asker ≠ st.station) :
    s.releaseHold st h goal =
      { released s h goal with
        ht := { (released s h goal).ht with
          peerOpenCount := s.ht.peerOpenCount - 1
          peerHeld := s.ht.peerHeld.map fun y =>
            if y.peer == h.asker then { y with sum := y.sum - h.amount } else y } : State }.formExposure st h.asker := by
  simp only [State.releaseHold, State.afterPeerEnd, State.endHold, bne_iff_ne.2 peer, if_true]
  rfl

theorem State.releaseHold_cards :
    (s.releaseHold st h goal).ct.cards = (s.modCard h.serial fun c => c.release h.amount).ct.cards := by
  by_cases own : h.asker = st.station
  · rw [State.releaseHold_own own]
    rfl
  · rw [State.releaseHold_peer own]
    exact State.formExposure_changes _ _ _ .cards (by decide)

/-! ### FREE and VOID by the state of the record (R56, R59) -/

section Free

variable {asker id : Nat}

theorem State.freeHold_unknown (unmatched : s.matchHold id asker n = none) :
    s.freeHold st asker id n = (s, .refused .unknownHold) := by
  rw [State.freeHold, unmatched]

variable (named : s.matchHold id asker n = some h)

include named

theorem State.freeHold_captured (taken : h.state = .captured) : s.freeHold st asker id n = (s, .refused .holdEnded) := by
  rw [State.freeHold, named]
  simp only [taken]

theorem State.freeHold_freed (freed : h.state = .freed) :
    s.freeHold st asker id n = (s.lapseIfDue n,
      .freed h.amount ((s.lapseIfDue n).cardFigures n).1 ((s.lapseIfDue n).cardFigures n).2.1) := by
  rw [State.freeHold, named]
  simp only [freed]

theorem State.freeHold_lapsed (lapsed : h.state = .lapsed) :
    s.freeHold st asker id n = (s.lapseIfDue n,
      .freed 0 ((s.lapseIfDue n).cardFigures n).1 ((s.lapseIfDue n).cardFigures n).2.1) := by
  rw [State.freeHold, named]
  simp only [lapsed]

/-- The figures answered are the card's after the release, before the lapse of R33. -/
theorem State.freeHold_held (held : h.state = .held) (found : s.findCard n = some c) :
    s.freeHold st asker id n = ((s.releaseHold st h .freed).lapseIfDue n,
      .freed h.amount c.balance (c.balance - (c.held - h.amount))) := by
  obtain ⟨-, -, rfl⟩ := State.matchHold_names named
  have after : (s.releaseHold st h .freed).findCard h.serial = some (c.release h.amount) :=
    (State.findCard_congr State.releaseHold_cards).trans (State.findCard_modCard (fun _ => rfl) found)
  rw [State.freeHold, named]
  simp only [held, State.cardFigures_found after]
  rfl

end Free

/-! ### The deadline of a hold (R50) -/

theorem State.holdDeadline_due {id : Nat} {d : Moment} (record : s.findHold id = some h) (held : h.state = .held)
    (deadline : h.deadline = some d) (due : d ≤ s.now) :
    s.holdDeadline st id = (s.releaseHold st h .lapsed).lapseIfDue h.serial := by
  rw [State.holdDeadline, record]
  simp only [held, deadline, if_pos due]

theorem State.holdDeadline_idle {id : Nat} (record : s.findHold id = some h)
    (idle : h.state ≠ .held ∨ ∀ d, h.deadline = some d → s.now < d) : s.holdDeadline st id = s := by
  rw [State.holdDeadline, record]
  dsimp only
  split
  next d held deadline => exact if_neg ((idle.resolve_left (not_not.2 held)) d deadline).not_ge
  next => rfl

/-- Settles O24: the figures of a card, VOID by the state of its record, and the deadline of a hold. -/
theorem holdsEndWithoutCapture : Obligations.HoldsEndWithoutCapture := by
  refine ⟨fun s n => ⟨State.cardFigures_absent, fun c => State.cardFigures_found⟩,
    fun s st t token ref holdId n hs hr => ?_, fun s st t id h hp hs record => ?_⟩
  · intro run v again
    have gives {u answer status values} (ran : (begun s t).freeHold st st.station holdId.toNat n = (u, answer))
        (reply : answer.reply = ⟨status, values⟩) : run = .next (finish (answered u token status values)) := by
      refine write_says hs.1 hs.2.2 ((named_begun hs t hr _).trans ((if_pos rfl).trans ?_))
      rw [ran, ← reply]
    refine ⟨fun unmatched => gives (State.freeHold_unknown (s := begun s t) unmatched) rfl, fun h named => ?_⟩
    replace named : (begun s t).matchHold holdId.toNat st.station n = some h := named
    obtain ⟨-, own, -⟩ := State.matchHold_names named
    refine ⟨fun taken => gives (State.freeHold_captured named taken) rfl, fun c held found => ?_,
      fun freed => gives (State.freeHold_freed named freed) rfl, fun lapsed => gives (State.freeHold_lapsed named lapsed) rfl⟩
    rw [gives (State.freeHold_held (s := begun s t) named held found) rfl, State.releaseHold_own own]
  · intro u v run
    have gives {w} (ran : u.holdDeadline st id.toNat = w) : run = .next (finish w.drainTest) := by
      have enrolled := whenEnrolled_some (s := u) hs fun st => u.holdDeadline st id.toNat
      rw [← ran, ← enrolled]
      exact event_powered hp t fun s => (whenEnrolled s fun st => s.holdDeadline st id.toNat).drainTest
    refine ⟨fun d held deadline due => ?_, fun idle => gives (State.holdDeadline_idle (s := u) record idle)⟩
    have lapses := gives (State.holdDeadline_due (s := u) record held deadline due)
    refine ⟨fun own => ?_, fun peer => ?_⟩
    · rw [lapses, State.releaseHold_own own]
    · rw [lapses, State.releaseHold_peer peer]
      rfl

/-! ### FREE from a peer (R56) -/

/-- A FREE addressed to this station is served in the state that has heard it, and answered. -/
theorem free_says {t : Moment} {hd : RxHeader} {g : Header} {holdId : Num2Field} {serial : Digits8Field} {i : Nat}
    {w : State} {answer : FreeAnswer} {b : Body} (hl : lineReady s st) (hf : addressed st hd g)
    (hr : (RawBody.free holdId serial).read = some (.free i n))
    (ran : (heardFrom s st t g).freeHold st g.source i n = (w, answer)) (body : answer.body = b) :
    exec (.freeReceived t hd holdId serial) s = .next (finish (w.offerAnswer ⟨g.source, g.tag, b⟩).drainTest) := by
  refine (hearKind_addressed hl hf t hr nofun nofun nofun).trans ?_
  rw [State.handOver, State.onFree, ran, ← body]
  rfl

/-- Settles O32: a FREE by the state of the record it names. -/
theorem freeReleasesTheHold : Obligations.FreeReleasesTheHold := by
  intro s st t hd g holdId serial i n hl hf hr u run answered again
  have gives {w answer b} (ran : u.freeHold st g.source i n = (w, answer)) (body : answer.body = b) :
      answered w b := free_says hl hf hr ran body
  clear_value u run
  refine ⟨fun unmatched => gives (State.freeHold_unknown unmatched) rfl, fun h named =>
    ⟨fun taken => gives (State.freeHold_captured named taken) rfl, fun freed => gives (State.freeHold_freed named freed) rfl,
    fun lapsed => gives (State.freeHold_lapsed named lapsed) rfl, fun c held found => ?_⟩⟩
  obtain ⟨-, asker, -⟩ := State.matchHold_names named
  have peer : h.asker ≠ st.station := asker ▸ hf.1.2
  have frees := gives (State.freeHold_held named held found) rfl
  rw [State.releaseHold_peer peer, asker] at frees
  exact frees

end Sys2Proof.Machine
end


section
/-! ## Refunds (R68 to R73) -/

namespace Sys2Proof.Machine

variable {s : State} {st : Settings} {e : TrailEntry} {tag : Option Nat} {n f : Nat} {c : Card}

theorem State.lapseIfDue_tr (s : State) (n : Nat) : (s.lapseIfDue n).tr = s.tr :=
  s.lapseIfDue_changes n .trail (by decide)

theorem State.findTrail_number {k : Nat} (found : s.findTrail k = some e) : e.number = k := by
  have passes := List.find?_some found
  exact beq_iff_eq.1 passes

/-! ### The refund at the entry and the card -/

/-- A refund by the own station is booked to U, and leaves no mark of a CREDIT. -/
theorem State.applyRefund_own (own : e.redeemer = st.station) :
    s.applyRefund st e f none =
      { withCard s e.serial (fun c => { c with balance := c.balance + f, lastChange := s.cc.openCycle }) (s.ct.float + f)
          { s.ct.life with refunds := s.ct.life.refunds.acc f } { s.ct.openOwn with u := s.ct.openOwn.u.acc (-f) }
          (s.ct.life.refunds.accSat f || s.ct.openOwn.u.accSat (-f)) with
        tr := { s.tr with
          entries := s.tr.entries.map fun y =>
            if y.number == e.number then { y with refunded := y.refunded + f } else y } } := by
  simp only [State.applyRefund, own, bne_self_eq_false, Bool.false_eq_true, if_false]
  rfl

/-- A refund by a peer is booked to its L, and its CREDIT is remembered at the entry. -/
theorem State.applyRefund_peer {t : Nat} (peer : e.redeemer ≠ st.station) :
    s.applyRefund st e f (some t) =
      { withCard s e.serial (fun c => { c with balance := c.balance + f, lastChange := s.cc.openCycle }) (s.ct.float + f)
          { s.ct.life with refunds := s.ct.life.refunds.acc f } s.ct.openOwn (s.ct.life.refunds.accSat f) with
        tr := { s.tr with
          entries := s.tr.entries.map fun y => if y.number == e.number then
            { y with refunded := y.refunded + f, lastCredit := some ⟨t, f, s.cc.openCycle⟩ } else y } : State
        }.bookLiability st e.redeemer (-f) := by
  simp only [State.applyRefund, bne_iff_ne.2 peer, if_true, State.cardRefund, Bool.not_true, Bool.false_and,
    Bool.or_false]
  rfl

/-! ### Checks 5 to 7 of R68 -/

theorem State.refundOn_more (more : f = 0 ∨ e.captured - e.refunded < f) :
    s.refundOn st e f tag = (s, .refused .overRefund (e.captured - e.refunded)) := if_pos more

section Fits

variable (pos : 0 < f) (fits : f ≤ e.captured - e.refunded)

include pos fits

theorem State.refundOn_absent (absent : s.findCard e.serial = none) :
    s.refundOn st e f tag = (s, .refused .unknownCard 0) := by
  rw [State.refundOn, if_neg (by omega), absent]

variable (found : (s.lapseIfDue e.serial).findCard e.serial = some c)

include found

theorem State.refundOn_closed (closed : c.state = .closed) :
    s.refundOn st e f tag = (s.lapseIfDue e.serial, .refused .cardClosed 0) := by
  obtain ⟨_, before⟩ := Option.ne_none_iff_exists'.1 (State.findCard_of_lapseIfDue found)
  rw [State.refundOn, if_neg (by omega), before]
  simp only [found, Card.not_lapsePending_of_closed closed, Bool.false_eq_true, if_false, closed, if_true]

theorem State.refundOn_lapsed (lapsed : c.state = .lapsed ∨ c.lapsePending s.cc.openCycle = true) :
    s.refundOn st e f tag = (s.lapseIfDue e.serial, .refused .cardLapsed 0) := by
  obtain ⟨_, before⟩ := Option.ne_none_iff_exists'.1 (State.findCard_of_lapseIfDue found)
  have notClosed := Card.not_closed_of_lapsed lapsed
  rw [State.refundOn, if_neg (by omega), before]
  simp only [found, State.lapseIfDue_cc, notClosed, if_false]
  cases pending : c.lapsePending s.cc.openCycle
  · rw [if_neg Bool.false_ne_true, if_pos (lapsed.resolve_right (by simp [pending]))]
  · exact if_pos rfl

theorem State.refundOn_live (live : c.state = .active ∨ c.state = .frozen)
    (notPending : c.lapsePending s.cc.openCycle = false) :
    s.refundOn st e f tag =
      if st.cardCeiling - c.balance < f then (s.lapseIfDue e.serial, .refused .ceiling 0)
      else ((s.lapseIfDue e.serial).applyRefund st e f tag,
        .credited e.number f (e.captured - (e.refunded + f)) s.cc.openCycle (c.balance + f)) := by
  obtain ⟨_, before⟩ := Option.ne_none_iff_exists'.1 (State.findCard_of_lapseIfDue found)
  obtain ⟨notClosed, notLapsed⟩ := Card.not_ended_of_live live
  rw [State.refundOn, if_neg (by omega), before]
  simp only [found, State.lapseIfDue_cc, notPending, Bool.false_eq_true, if_false, notClosed, notLapsed]

end Fits

/-! ### REFUND at the own till (R73) -/

section Own

variable {k : Nat}

theorem State.refundOwn_unknown (unknown : s.findTrail k = none) :
    s.refundOwn st n k f = (s, .refused .unknownCapture 0) := by
  rw [State.refundOwn, unknown]

variable (entry : s.findTrail k = some e)

include entry

theorem State.refundOwn_notRedeemer (other : e.redeemer ≠ st.station) :
    s.refundOwn st n k f = (s, .refused .notRedeemer 0) := by
  rw [State.refundOwn, entry]
  exact if_pos other

theorem State.refundOwn_otherCard (own : e.redeemer = st.station) (other : e.serial ≠ n) :
    s.refundOwn st n k f = (s, .refused .unknownCapture 0) := by
  rw [State.refundOwn, entry]
  exact (if_neg (not_not.2 own)).trans (if_pos other)

theorem State.refundOwn_entry (own : e.redeemer = st.station) :
    s.refundOwn st e.serial k f = s.refundOn st e f none := by
  rw [State.refundOwn, entry]
  exact (if_neg (not_not.2 own)).trans (if_neg (not_not.2 rfl))

end Own

/-- Settles O25: the tests of the entry, the checks of R68, and a refund booked to U. -/
theorem localRefund : Obligations.LocalRefund := by
  intro s st t token ref trail amount n k f hs hr hk ha run refused u v o
  have gives {w answer status values} (ran : u.refundOwn st n k f = (w, answer))
      (reply : answer.reply = ⟨status, values⟩) : run = .next (finish (answered w token status values)) := by
    refine write_says hs.1 hs.2.2 ((withTrail_good hk _ _).trans ((named_begun hs t hr _).trans
      ((withAmount_good ha _ _).trans ((if_pos rfl).trans ?_))))
    rw [← reply]
    exact congrArg (fun x : State × RefundAnswer => (x.1, x.2.reply)) ran
  refine ⟨fun unknown => gives (State.refundOwn_unknown (s := u) unknown) rfl, fun e entry => ?_⟩
  replace entry : u.findTrail k = some e := entry
  refine ⟨fun other => gives (State.refundOwn_notRedeemer entry other) rfl,
    fun own other => gives (State.refundOwn_otherCard entry own other) rfl, ?_⟩
  rintro own rfl
  have gives {w answer status values} (ran : u.refundOn st e f none = (w, answer))
      (reply : answer.reply = ⟨status, values⟩) : run = .next (finish (answered w token status values)) :=
    gives ((State.refundOwn_entry entry own).trans ran) reply
  refine ⟨fun more => gives (State.refundOn_more more) rfl, fun pos fits =>
    ⟨fun absent => gives (State.refundOn_absent (s := u) pos fits absent) rfl, fun c found => ?_⟩⟩
  replace found : (u.lapseIfDue e.serial).findCard e.serial = some c := found
  refine ⟨fun closed => gives (State.refundOn_closed pos fits found closed) rfl,
    fun lapsed => gives (State.refundOn_lapsed pos fits found lapsed) rfl, fun live notPending => ?_⟩
  have live := State.refundOn_live (st := st) (tag := none) pos fits found live notPending
  refine ⟨fun high => gives (live.trans (if_pos high)) rfl, fun low => ?_⟩
  have number := State.findTrail_number entry
  rw [gives (live.trans (if_neg low.not_gt)) rfl, State.applyRefund_own own, State.lapseIfDue_tr, State.lapseIfDue_cc, number]
  rfl

/-! ### CREDIT from a peer (R68 to R72) -/

section Credit

variable {source reqTag k : Nat}

theorem State.serveCredit_unknown (unknown : s.findTrail k = none) :
    s.serveCredit st source reqTag n k f = (s, .refused .unknownCapture 0) := by
  rw [State.serveCredit, unknown]

variable (entry : s.findTrail k = some e)

include entry

theorem State.serveCredit_notRedeemer (other : e.redeemer ≠ source) :
    s.serveCredit st source reqTag n k f = (s, .refused .notRedeemer 0) := by
  rw [State.serveCredit, entry]
  exact if_pos other

variable (own : e.redeemer = source)

include own

theorem State.serveCredit_otherCard (other : e.serial ≠ n) :
    s.serveCredit st source reqTag n k f = (s, .refused .unknownCapture 0) := by
  rw [State.serveCredit, entry]
  exact (if_neg (not_not.2 own)).trans (if_pos other)

/-- A CREDIT whose tag and amount the entry remembers (R69). -/
theorem State.serveCredit_repeated {y : LastCredit} (last : e.lastCredit = some y) (sameTag : y.tag = reqTag)
    (sameAmount : y.amount = f) :
    s.serveCredit st source reqTag e.serial k f =
      (s.lapseIfDue e.serial, .credited k f (e.captured - e.refunded) y.cycle
        ((s.lapseIfDue e.serial).cardFigures e.serial).1) := by
  rw [State.serveCredit, entry]
  simp only [own, last, sameTag, sameAmount, State.findTrail_number entry, ne_eq, not_true, if_false, and_self, if_true]

theorem State.serveCredit_new (new : ∀ y, e.lastCredit = some y → y.tag ≠ reqTag ∨ y.amount ≠ f) :
    s.serveCredit st source reqTag e.serial k f = s.refundOn st e f (some reqTag) := by
  rw [State.serveCredit, entry]
  cases last : e.lastCredit with
  | none => simp only [own, last, ne_eq, not_true, if_false]
  | some y =>
    have other : ¬(y.tag = reqTag ∧ y.amount = f) := not_and_or.2 (new y last)
    simp only [own, last, other, ne_eq, not_true, if_false]

end Credit

/-- A CREDIT addressed to this station is served in the state that has heard it, and answered. -/
theorem credit_says {t : Moment} {hd : RxHeader} {g : Header} {serial trail : Digits8Field} {amount : AmountField}
    {k : Nat} {w : State} {answer : RefundAnswer} {b : Body} (hl : lineReady s st) (hf : addressed st hd g)
    (hr : (RawBody.credit serial trail amount).read = some (.credit n k f))
    (ran : (heardFrom s st t g).serveCredit st g.source g.tag n k f = (w, answer)) (body : answer.body = b) :
    exec (.creditReceived t hd serial trail amount) s =
      .next (finish (w.offerAnswer ⟨g.source, g.tag, b⟩).drainTest) := by
  refine (hearKind_addressed hl hf t hr nofun nofun nofun).trans ?_
  rw [State.handOver, State.onCredit, ran, ← body]
  rfl

/-- Settles O33: the tests of the entry, the repeat of R69, the checks of R68, and a refund booked to the sender's L. -/
theorem creditReturnsMoney : Obligations.CreditReturnsMoney := by
  intro s st t hd g serial trail amount n k f hl hf hr u v o run answered
  have gives {w answer b} (ran : u.serveCredit st g.source g.tag n k f = (w, answer)) (body : answer.body = b) :
      answered w b := credit_says hl hf hr ran body
  clear_value u run
  refine ⟨fun unknown => gives (State.serveCredit_unknown unknown) rfl, fun e entry => ?_⟩
  refine ⟨fun other => gives (State.serveCredit_notRedeemer entry other) rfl,
    fun own other => gives (State.serveCredit_otherCard entry own other) rfl, ?_⟩
  rintro own rfl
  refine ⟨fun y last sameTag sameAmount => gives (State.serveCredit_repeated entry own last sameTag sameAmount) rfl,
    fun new => ?_⟩
  have gives {w answer b} (ran : u.refundOn st e f (some g.tag) = (w, answer)) (body : answer.body = b) : answered w b :=
    gives ((State.serveCredit_new entry own new).trans ran) body
  refine ⟨fun more => gives (State.refundOn_more more) rfl, fun pos fits =>
    ⟨fun absent => gives (State.refundOn_absent pos fits absent) rfl, fun c found => ?_⟩⟩
  refine ⟨fun closed => gives (State.refundOn_closed pos fits found closed) rfl,
    fun lapsed => gives (State.refundOn_lapsed pos fits found lapsed) rfl, fun live notPending => ?_⟩
  have live := State.refundOn_live (st := st) (tag := some g.tag) pos fits found live notPending
  refine ⟨fun high => gives (live.trans (if_pos high)) rfl, fun low => ?_⟩
  have number := State.findTrail_number entry
  have peer : e.redeemer ≠ st.station := own ▸ hf.1.2
  have credits := gives (live.trans (if_neg low.not_gt)) rfl
  rw [State.applyRefund_peer peer, State.lapseIfDue_tr, State.lapseIfDue_cc, number, own] at credits
  exact credits

end Sys2Proof.Machine
end


section
/-! ## A step of the sweep (R34, R35) -/

namespace Sys2Proof.Machine

variable {s : State} {st : Settings} {c : Card} {k : Nat}

/-! ### The examination of a record -/

theorem State.examine_marked (marked : c.sweepMark = s.cc.openCycle) : s.examine st c = s := if_pos marked

section Unmarked

variable (unmarked : c.sweepMark ≠ s.cc.openCycle)

include unmarked

theorem State.examine_due (due : c.due s.cc.openCycle = true) (free : c.openHolds = 0) :
    s.examine st c = s.lapseCard c :=
  (if_neg unmarked).trans (if_pos (by simp [due, free]))

theorem State.examine_purged (ended : c.state = .closed ∨ c.state = .lapsed) (old : st.retention < s.cc.openCycle)
    (past : c.lastChange + st.retention ≤ s.cc.openCycle) :
    s.examine st c = { s with ct := { s.ct with cards := s.ct.cards.filter fun x => x.serial != c.serial } } := by
  have notDue : c.due s.cc.openCycle = false := by
    rcases ended with ended | ended <;> simp [Card.due, ended]
  refine (if_neg unmarked).trans ((if_neg (by simp [notDue])).trans (if_pos ?_))
  rcases ended with ended | ended <;> simp [Card.purgeable, ended, old, past]

theorem State.examine_kept (stays : c.due s.cc.openCycle = false ∨ c.openHolds ≠ 0)
    (kept : (c.state ≠ .closed ∧ c.state ≠ .lapsed) ∨ s.cc.openCycle ≤ st.retention ∨
      s.cc.openCycle < c.lastChange + st.retention) :
    s.examine st c = s.modCard c.serial fun c => { c with sweepMark := s.cc.openCycle } := by
  refine (if_neg unmarked).trans ((if_neg ?_).trans (if_neg ?_))
  · rcases stays with notDue | held
    · simp [notDue]
    · simp [held]
  · rcases kept with ⟨notClosed, notLapsed⟩ | young | recent
    · simp [notClosed, notLapsed]
    · simp [Card.purgeable, young.not_gt]
    · simp [Card.purgeable, recent.not_ge]

end Unmarked

/-- A record changed in place keeps every serial of the table. -/
theorem State.exists_modCard {n : Nat} {f : Card → Card} (serial : ∀ c, (f c).serial = c.serial) {p : Nat → Prop} :
    (∃ x ∈ (s.modCard n f).ct.cards, p x.serial) ↔ ∃ x ∈ s.ct.cards, p x.serial := by
  have same (x : Card) : (if x.serial == n then f x else x).serial = x.serial := by
    split
    · exact serial x
    · rfl
  simp only [State.modCard_ct_cards, List.mem_map, exists_exists_and_eq_and, same]

/-- The examination of a record takes none above it away. -/
theorem State.examine_above :
    (∃ x ∈ (s.examine st c).ct.cards, c.serial < x.serial) ↔ ∃ x ∈ s.ct.cards, c.serial < x.serial := by
  unfold State.examine
  dsimp only
  split
  · rfl
  split
  · exact State.exists_modCard (f := fun c => c.lapse s.cc.openCycle) fun _ => rfl
  split
  · refine exists_congr fun x => ?_
    rw [List.mem_filter, bne_iff_ne]
    exact ⟨fun ⟨⟨mem, _⟩, above⟩ => ⟨mem, above⟩, fun ⟨mem, above⟩ => ⟨⟨mem, above.ne'⟩, above⟩⟩
  · exact State.exists_modCard (f := fun c => { c with sweepMark := s.cc.openCycle }) fun _ => rfl

/-! ### The record examined next -/

theorem State.nextSwept_none (cursor : s.ct.cursor = some k) :
    s.nextSwept = none ↔ ¬∃ c ∈ s.ct.cards, k < c.serial := by
  simp [State.nextSwept, cursor]

theorem State.nextSwept_first {below above : List Card} (cursor : s.ct.cursor = some k)
    (cards : s.ct.cards = below ++ c :: above) (passed : ∀ x ∈ below, x.serial ≤ k) (next : k < c.serial) :
    s.nextSwept = some c := by
  rw [State.nextSwept, cursor]
  exact find?_first cards (fun x hx => by simpa using passed x hx) (decide_eq_true next)

/-! ### The step -/

theorem State.sweepStep_idle (idle : s.cc.phase ≠ .sweeping ∨ s.ct.cursor = none) : s.sweepStep st = s := by
  refine if_pos ?_
  rcases idle with phase | none
  · simp [phase]
  · simp [none]

section Sweeping

variable (sweeping : s.cc.phase = .sweeping) (cursor : s.ct.cursor = some k)

include sweeping cursor

theorem State.sweepStep_ends (none : s.nextSwept = none) : s.sweepStep st = s.sweepEnd st := by
  rw [State.sweepStep, if_neg (by simp [sweeping, cursor]), none]

/-- A record is examined and the cursor moves to it; with no record above it the sweep ends in the same step. -/
theorem State.sweepStep_examines (next : s.nextSwept = some c) :
    s.sweepStep st =
      if ∃ x ∈ s.ct.cards, c.serial < x.serial then (s.examine st c).setCursor (some c.serial)
      else ((s.examine st c).setCursor (some c.serial)).sweepEnd st := by
  have last : ((s.examine st c).setCursor (some c.serial)).nextSwept = none ↔ ¬∃ x ∈ s.ct.cards, c.serial < x.serial :=
    (State.nextSwept_none (s := (s.examine st c).setCursor (some c.serial)) rfl).trans State.examine_above.not
  rw [State.sweepStep, if_neg (by simp [sweeping, cursor]), next]
  dsimp only
  split
  next ended => exact (if_neg (last.1 (Option.isNone_iff_eq_none.1 ended))).symm
  next goesOn => exact (if_pos (not_not.1 fun none => goesOn (Option.isNone_iff_eq_none.2 (last.2 none)))).symm

end Sweeping

/-! ### The end of the sweep (R139, R146) -/

theorem State.sweepEnd_waits (noTarget : s.cc.pendingTarget = none) (timer : s.cc.sealTimer ≠ none) :
    s.sweepEnd st = { s.setCursor none with cc := { s.cc with phase := .sealing } } := by
  refine if_neg ?_
  simpa [State.setCursor, noTarget] using timer

theorem State.sweepEnd_seals (due : s.cc.pendingTarget ≠ none ∨ s.cc.sealTimer = none) :
    s.sweepEnd st = (s.setCursor none).makeSeal st s.cc.sealTimer.isSome := by
  refine if_pos ?_
  simpa [State.setCursor, Option.isSome_iff_ne_none] using due

/-- Settles O47: the step, the examination it makes, and the end it comes to. -/
theorem sweepStepExaminesARecord : Obligations.SweepStepExaminesARecord := by
  refine ⟨fun s st t hp hs => ?_, fun s st c => ⟨State.examine_marked, State.examine_due, State.examine_purged,
    State.examine_kept⟩, fun s st => ⟨State.sweepEnd_waits, State.sweepEnd_seals⟩⟩
  intro u run
  have steps {w} (swept : u.sweepStep st = w) : run = .next (finish w) := by
    have enrolled := whenEnrolled_some (s := u) hs u.sweepStep
    rw [← swept, ← enrolled]
    exact event_powered hp t fun s => whenEnrolled s s.sweepStep
  refine ⟨fun idle => steps (State.sweepStep_idle (s := u) idle), fun k sweeping cursor => ⟨fun passed => ?_,
    fun below c above cards passed next => ?_⟩⟩
  · have none : u.nextSwept = none := (State.nextSwept_none (s := u) cursor).2 fun ⟨c, mem, above⟩ =>
      (passed c mem).not_gt above
    exact steps (State.sweepStep_ends (s := u) sweeping cursor none)
  · have examines := State.sweepStep_examines (s := u) (st := st) sweeping cursor
      (State.nextSwept_first (s := u) cursor cards passed next)
    refine ⟨fun more => steps (examines.trans (if_pos more)), fun last => steps (examines.trans (if_neg ?_))⟩
    rintro ⟨x, mem, higher⟩
    exact (last x mem).not_gt higher

end Sys2Proof.Machine
end


section
/-! ## Cells and ids of new holds (R41, R42) -/

namespace Sys2Proof.Machine

variable {s : State} {st : Settings}

/-! ### The cell of a new hold (R42) -/

theorem State.takeCell_free (free : s.ht.holds.length < st.holdArea) : s.takeCell st = some s := if_pos free

theorem State.takeCell_reused {i : Nat} {rest : List Nat} (full : st.holdArea ≤ s.ht.holds.length)
    (oldest : s.ht.endList = i :: rest) :
    s.takeCell st =
      some { s with ht := { s.ht with holds := s.ht.holds.filter fun h => h.id != i, endList := rest } } := by
  rw [State.takeCell, if_neg full.not_gt, oldest]

theorem State.takeCell_none (full : st.holdArea ≤ s.ht.holds.length) (allOpen : s.ht.endList = []) :
    s.takeCell st = none := by
  rw [State.takeCell, if_neg full.not_gt, allOpen]

/-! ### The first free number around a ring (R41, R102) -/

theorem firstFree_self {hi n fuel : Nat} {taken : List Nat} (free : n ∉ taken) : firstFree hi taken fuel n = n := by
  cases fuel with
  | zero => rfl
  | succ fuel => exact if_neg free

/-- The search passes over taken numbers only. -/
theorem firstFree_passes (hi : Nat) (taken : List Nat) (fuel : Nat) :
    ∀ n, ∃ j, firstFree hi taken fuel n = (nextInRing hi)^[j] n ∧ ∀ i < j, (nextInRing hi)^[i] n ∈ taken := by
  induction fuel with
  | zero => exact fun n => ⟨0, rfl, fun i below => absurd below (Nat.not_lt_zero i)⟩
  | succ fuel ih =>
    intro n
    by_cases here : n ∈ taken
    · obtain ⟨j, found, passed⟩ := ih (nextInRing hi n)
      refine ⟨j + 1, (if_pos here).trans found, fun i below => ?_⟩
      cases i with
      | zero => exact here
      | succ i => exact passed i (Nat.lt_of_succ_lt_succ below)
    · exact ⟨0, firstFree_self here, fun i below => absurd below (Nat.not_lt_zero i)⟩

/-- `firstFree_passes`, the numbers around the ring written as remainders. -/
theorem firstFree_along {hi n : Nat} (low : 1 ≤ n) (high : n ≤ hi) (taken : List Nat) (fuel : Nat) :
    ∃ j, firstFree hi taken fuel n = (n + j - 1) % hi + 1 ∧ ∀ i < j, (n + i - 1) % hi + 1 ∈ taken := by
  have along (i : Nat) : (nextInRing hi)^[i] n = (n + i - 1) % hi + 1 := by
    rw [nextInRing_iterate low high, Nat.sub_add_comm low]
  simpa only [along] using firstFree_passes hi taken fuel n

/-! ### The id of a new hold (R41) -/

/-- The ring of ids is longer than any Hold Table. -/
theorem State.newHoldId_not_mem (room : s.ht.holds.length ≤ 1024) (low : 1 ≤ s.ht.nextId)
    (high : s.ht.nextId ≤ Config.idMax) : s.newHoldId ∉ s.ht.holds.map Hold.id := by
  have fewer : (s.ht.holds.map Hold.id).length < Config.idMax := by
    rw [List.length_map, Config.idMax]
    omega
  have free := firstFree_not_mem low high fewer
  rwa [List.length_map] at free

/-- Settles O22: the cell by the room and the end list, the id by the search around the ring. -/
theorem cellsAndHoldIds : Obligations.CellsAndHoldIds := by
  intro s st
  refine ⟨State.takeCell_free, fun _ _ => State.takeCell_reused, State.takeCell_none, firstFree_self,
    fun room low high => ?_⟩
  obtain ⟨low', high'⟩ := firstFree_mem (taken := s.ht.holds.map Hold.id) (s.ht.holds.length + 1) low high
  exact ⟨State.newHoldId_not_mem room low high, low', high', firstFree_along low high _ _⟩

end Sys2Proof.Machine
end


section
/-! ## JOIN, DRAIN and LEAVE (R91, R93, R94) -/

namespace Sys2Proof.Machine

variable {s : State} {st : Settings}

/-- A command of an enrolled part that asks for nothing else answers what its block does in the state it has begun in. -/
theorem enrolled_says {t : Moment} {token : Token} {f : Settings → Effect} {u : State} {status : Status}
    {values : List Value} (h : tillReady s st) (ran : f st (begun s t) = (u, ⟨status, values⟩)) :
    event t (State.write token (enrolled f)) s = .next (finish (answered u token status values)) :=
  write_says h.1 h.2.2 ((enrolled_begun h t f).trans ran)

theorem State.join_away (away : s.lc.station = .offline ∨ s.lc.station = .withdrawn) :
    s.join = ({ s with lc := { s.lc with station := .listening, listenEnd := some (s.now + 2000000), clash := false } },
      ⟨.ok, []⟩) := by
  unfold State.join
  rcases away with away | away <;> rw [away] <;> rfl

theorem State.join_there (there : s.lc.station = .listening ∨ s.lc.station = .active ∨ s.lc.station = .draining) :
    s.join = (s, ⟨.ok, [.num1 s.lc.station.code]⟩) := by
  unfold State.join
  rcases there with there | there | there <;> rw [there]

theorem State.leave_away (away : s.lc.station = .offline ∨ s.lc.station = .withdrawn) : s.leave = (s, ⟨.ok, []⟩) := by
  unfold State.leave
  rcases away with away | away <;> rw [away] <;> rfl

theorem State.leave_there (there : s.lc.station = .listening ∨ s.lc.station = .active ∨ s.lc.station = .draining) :
    s.leave = (s.withdraw, ⟨.ok, []⟩) := by
  unfold State.leave
  rcases there with there | there | there <;> rw [there] <;> rfl

theorem State.drain_active (active : s.lc.station = .active) :
    s.drain = ({ s with lc := { s.lc with station := .draining } : State }.drainTest, ⟨.ok, []⟩) := by
  rw [State.drain, active]
  rfl

theorem State.drain_draining (draining : s.lc.station = .draining) : s.drain = (s, ⟨.ok, []⟩) := by
  rw [State.drain, draining]
  rfl

theorem State.drain_elsewhere (notActive : s.lc.station ≠ .active) (notDraining : s.lc.station ≠ .draining) :
    s.drain = (s, ⟨.notActive, []⟩) := by
  unfold State.drain
  split
  · exact absurd ‹_› notActive
  · exact absurd ‹_› notDraining
  · rfl

end Sys2Proof.Machine
end

section
/-! ## Entry to WITHDRAWN (R94, R110, R121) -/

namespace Sys2Proof.Machine

/-- The part that has left the line, its results not yet offered (R94, R110, R121). -/
def State.offTheLine (s : State) : State := ({ s with lc := s.lc.withdraw s.now : State }.setAsideAll).forgetPresence

theorem State.withdraw_eq (s : State) : s.withdraw = s.offTheLine.fillResults := rfl

theorem State.offTheLine_lc (s : State) : s.offTheLine.lc = s.lc.withdraw s.now := State.setAsideAll_lc _

theorem State.offTheLine_pt (s : State) :
    s.offTheLine.pt = s.pt.map fun e => { e with presence := .unknown, lastHeard := none } := by
  have before : ({ s with lc := s.lc.withdraw s.now : State }.setAsideAll).pt = s.pt :=
    State.setAsideAll_changes _ .peers (by decide)
  rw [State.offTheLine, State.forgetPresence_pt, before]

/-- Of the Link Controller a filling of the result queue takes the held link result alone. -/
theorem State.fillResults_heldLink (s : State) : ∃ held, s.fillResults.lc = { s.lc with heldLink := held } := by
  refine State.fillResults_ind (P := fun t => ∃ held, t.lc = { s.lc with heldLink := held }) (fun t u ht hu => ?_)
    ⟨s.lc.heldLink, rfl⟩
  obtain ⟨held, ht⟩ := ht
  rcases (State.fillResult_cases hu).2 with ⟨e, x, -, -, rfl⟩ | ⟨w, -, rfl⟩
  · exact ⟨held, ht⟩
  · exact ⟨none, by rw [State.enterLink, State.enterResult, ht]⟩

theorem State.withdraw_lc (s : State) : ∃ held, s.withdraw.lc = { s.lc.withdraw s.now with heldLink := held } := by
  rw [s.withdraw_eq, ← s.offTheLine_lc]
  exact s.offTheLine.fillResults_heldLink

theorem State.withdraw_pt (s : State) :
    s.withdraw.pt = s.pt.map fun e => { e with presence := .unknown, lastHeard := none } :=
  (s.offTheLine.fillResults_changes .peers (by decide)).trans s.offTheLine_pt

/-- No exchange is under way, and no resend is wanted (R110). -/
theorem State.withdraw_settled (s : State) :
    ∀ e ∈ s.withdraw.xt.exchanges, e.state ≠ .queued ∧ e.state ≠ .waiting ∧ e.resendWanted = false := by
  intro e he
  obtain ⟨y, hy, hey⟩ := s.offTheLine.fillResults_from e he
  obtain ⟨settled, resend⟩ := State.setAsideAll_settled _ y hy
  obtain ⟨queued, waiting⟩ := y.not_underWay_iff.1 settled
  rcases hey with rfl | rfl <;> exact ⟨queued, waiting, resend⟩

/-- The line is busy from the moment its own frame is cut off (R77; log 21). -/
theorem Link.lineCut_eq (l : Link) (now : Moment) : l.lineCut now = if l.tx = .idle then l.line else ⟨false, now⟩ := by
  rw [Link.lineCut]
  by_cases idle : l.tx = .idle
  · rw [if_pos idle, if_neg (by rw [Link.isDriving_iff, idle]; simp)]
  · rw [if_neg idle, if_pos (l.isDriving_iff.2 idle)]

theorem State.offTheLine_eq {s : State} (room : withinRoom s) :
    s.offTheLine =
      { s with
        seq := s.seq + asideResults s.xt.exchanges
        xt := { s.xt with
          exchanges := asideExchanges s.seq s.xt.exchanges
          ended := keepLast 64 (s.xt.ended ++ asideEnded s.xt.exchanges) }
        lc := { s.lc with
          station := .withdrawn, answerQ := [], requestQ := [], tx := .idle,
          line := if s.lc.tx = .idle then s.lc.line else ⟨false, s.now⟩,
          beaconAt := none, heldBeacon := false, wanted := wantedClear, listenEnd := none, badFrames := [] }
        pt := s.pt.map fun e => { e with presence := .unknown, lastHeard := none } } := by
  obtain ⟨-, -, -, ended, -, -, -, tags, -⟩ := room
  rw [← Link.lineCut_eq, State.offTheLine, State.setAsideAll_eq (s := { s with lc := s.lc.withdraw s.now }) tags ended]
  rfl

/-- Settles O15: JOIN and LEAVE by the station state; the parts of the entry to WITHDRAWN, then all of it by the kinds
of the exchanges. -/
theorem joinLeaveAndWithdrawn : Obligations.JoinLeaveAndWithdrawn := by
  refine ⟨fun s st t token h => ⟨fun away => ?_, fun there => ⟨?_, ?_⟩, fun away => ?_⟩, fun s => ?_⟩
  · exact enrolled_says (f := fun _ => State.join) h (State.join_away (s := begun s t) away)
  · exact enrolled_says (f := fun _ => State.join) h (State.join_there (s := begun s t) there)
  · exact enrolled_says (f := fun _ => State.leave) h (State.leave_there (s := begun s t) there)
  · exact enrolled_says (f := fun _ => State.leave) h (State.leave_away (s := begun s t) away)
  · intro u
    obtain ⟨held, lc⟩ : ∃ held, u.lc = { s.lc.withdraw s.now with heldLink := held } := s.withdraw_lc
    rw [lc]
    refine ⟨rfl, rfl, rfl, rfl, rfl, rfl, rfl, rfl, fun m marked => wantedClear_clear marked, s.withdraw_settled,
      s.withdraw_pt, fun room => ?_, s.withdraw_changes.mono (by decide)⟩
    exact congrArg State.fillResults (State.offTheLine_eq room)

end Sys2Proof.Machine
end

section
/-! ## When a drain completes (R93) -/

namespace Sys2Proof.Machine

theorem Exchange.delaysDrain_eq_false (e : Exchange) : e.delaysDrain = false ↔ e.state = .done := by
  cases h : e.state <;> simp [Exchange.delaysDrain, Exchange.underWay, h]

theorem State.drained_iff (s : State) : s.drained = true ↔
    s.ht.peerOpenCount = 0 ∧ (∀ e ∈ s.xt.exchanges, e.state = .done) ∧ s.lc.answerQ = [] ∧
      (∀ q ∈ s.lc.requestQ, q.frame.body = .beacon) ∧ (∀ m ∈ s.lc.wanted, m.tally = false ∧ m.check = false) ∧
      s.lc.tx = .idle := by
  have quiet : s.lc.isDriving = false ↔ s.lc.tx = .idle := by
    rw [← Bool.not_eq_true, Link.isDriving_iff, not_not]
  simp only [State.drained, Bool.and_eq_true, Bool.not_eq_true', List.any_eq_false, List.all_eq_true, beq_iff_eq,
    List.isEmpty_iff, quiet, Bool.not_eq_true, Exchange.delaysDrain_eq_false, Bool.or_eq_false_iff, and_assoc]

theorem State.drainTest_done {s : State} (draining : s.lc.station = .draining) (done : s.drained = true) :
    s.drainTest = s.withdraw.linkResult .drained := if_pos (by simp [draining, done])

theorem State.drainTest_waits {s : State} (waits : s.drained = false) : s.drainTest = s := if_neg (by simp [waits])

/-- Settles O16: DRAIN by the station state; the test by its conditions. -/
theorem drainCompletes : Obligations.DrainCompletes := by
  refine ⟨fun s st t token h => ⟨fun active => ?_, fun draining => ?_, fun notActive notDraining => ?_⟩,
    fun s t hp => event_powered hp t _, fun s => ⟨fun draining holds exchanges answers requests marks quiet => ?_,
      s.drainTest_of_not_draining, fun waits => State.drainTest_waits ?_⟩⟩
  · exact enrolled_says (f := fun _ => State.drain) h (State.drain_active (s := begun s t) active)
  · exact enrolled_says (f := fun _ => State.drain) h (State.drain_draining (s := begun s t) draining)
  · exact enrolled_says (f := fun _ => State.drain) h (State.drain_elsewhere (s := begun s t) notActive notDraining)
  · exact State.drainTest_done draining (s.drained_iff.2 ⟨holds, exchanges, answers, requests, marks, quiet⟩)
  · rw [← Bool.not_eq_true, s.drained_iff]
    rintro ⟨holds, exchanges, answers, requests, marks, quiet⟩
    rcases waits with open_ | ⟨e, he, way⟩ | queued | ⟨q, hq, frame⟩ | ⟨m, hm, marked⟩ | driving
    · exact open_ holds
    · exact way (exchanges e he)
    · exact queued answers
    · exact frame (requests q hq)
    · obtain ⟨tally, check⟩ := marks m hm
      rcases marked with marked | marked
      · exact Bool.false_ne_true (tally.symm.trans marked)
      · exact Bool.false_ne_true (check.symm.trans marked)
    · exact driving quiet

end Sys2Proof.Machine
end

section
/-! ## A clash and its link result (R92, R95) -/

namespace Sys2Proof.Machine

variable {s : State} {st : Settings}

theorem State.linkResult_enters {o : LinkOutcome} (room : s.tp.results.length < 32) :
    s.linkResult o = { s with tp := { s.tp with results := s.tp.results ++ [.link o s.lc.station s.cc.openCycle] } } :=
  if_pos room

theorem State.linkResult_held {o : LinkOutcome} (full : 32 ≤ s.tp.results.length) :
    s.linkResult o =
      { s with lc := { s.lc with heldLink := some ⟨.link o s.lc.station s.cc.openCycle, s.seq⟩ }, seq := s.seq + 1 } :=
  if_neg (Nat.not_lt.2 full)

theorem State.clashFound_listening (listening : s.lc.station = .listening) :
    s.clashFound = { s with
      lc := { s.lc with station := .offline, listenEnd := none, badFrames := [], clash := true }
      pt := s.pt.map fun e => { e with presence := .unknown, lastHeard := none } : State }.linkResult .clash := by
  rw [State.clashFound, listening]
  rfl

theorem State.clashFound_onLine (onLine : s.lc.station = .active ∨ s.lc.station = .draining) :
    s.clashFound = { s.withdraw with lc := { s.withdraw.lc with clash := true } : State }.linkResult .clash := by
  unfold State.clashFound
  rcases onLine with onLine | onLine <;> rw [onLine]

/-- A station that receives takes a good frame with its own number as a clash (R86, R92). -/
theorem hearGood_clash {h : RxHeader} {g : Header} (hp : s.power = true) (hs : s.tp.settings = some st)
    (receives : s.lc.receives = true) (read : readHeader h = some g) (own : g.source = st.station) (t : Moment)
    (x : RxBody) : event t (·.hearGood h x) s = .next (finish (s.atMoment t).clashFound) := by
  rw [event_powered hp, State.hearGood, whenEnrolled_some (s := s.atMoment t) hs,
    if_pos (show (s.atMoment t).lc.receives = true from receives)]
  simp only [read, State.onReadable, own, if_true]

/-- Settles O40: a clash by the station state, and the two ways of a link result. -/
theorem frameClash : Obligations.FrameClash := by
  refine ⟨fun s st t f g hp hs quiet read own => ?_, fun s o => ⟨State.linkResult_enters, State.linkResult_held⟩⟩
  intro u run
  have idle : s.lc.tx = .idle := by rwa [← Bool.not_eq_true, Link.isDriving_iff, not_not] at quiet
  have clashes (hears : s.lc.station = .listening ∨ s.lc.station = .active ∨ s.lc.station = .draining) :
      run = .next (finish u.clashFound) :=
    hearGood_clash hp hs (s.lc.receives_iff.2 ⟨hears, idle⟩) read own t _
  refine ⟨fun listening => ?_, fun onLine => ?_, fun away => ?_⟩
  · rw [clashes (.inl listening), State.clashFound_listening (s := u) listening]
    rfl
  · rw [clashes (.inr onLine), State.clashFound_onLine (s := u) onLine]
  · refine hearGood_deaf hp hs ?_ t _
    rw [← Bool.not_eq_true, s.lc.receives_iff]
    rintro ⟨hears, -⟩
    rcases away with away | away <;> simp [away] at hears

end Sys2Proof.Machine
end


section
/-! ## The frames owed to a peer (R106, R130 to R132) -/

namespace Sys2Proof.Machine

variable {s : State} {p : Nat}

theorem Body.isTally_eq_false (b : Body) : b.isTally = false ↔ ∀ c r l, b ≠ .tally c r l := by
  cases b <;> simp [Body.isTally]

theorem Body.isCheck_eq_false (b : Body) : b.isCheck = false ↔ b ≠ .check := by
  cases b <;> simp [Body.isCheck]

theorem State.linkFrameStands_eq_false (s : State) (p : Nat) (q : Body → Bool) :
    s.linkFrameStands p q = false ↔ ∀ f ∈ s.lc.requestQ, f.frame.dest = p → q f.frame.body = false := by
  simp [State.linkFrameStands]

theorem State.frameStands_eq_false (s : State) (tag : Nat) :
    s.frameStands tag = false ↔ ∀ q ∈ s.lc.requestQ, q.frame.tag = tag → q.frame.body.ofExchange = false := by
  simp [State.frameStands]

/-- When a TALLY is asked for (R132). -/
def State.owedTally (s : State) (p : Nat) : Prop :=
  (s.peer p).tallyOwed = true ∧ s.lc.onLine = true ∧ (s.peer p).presence = .present ∧
    (s.wantedMarks p).tally = false ∧ ∀ q ∈ s.lc.requestQ, q.frame.dest = p → ∀ c r l, q.frame.body ≠ .tally c r l

/-- When a CHECK is asked for (R130). -/
def State.owedCheck (s : State) (p : Nat) : Prop :=
  (s.peer p).standing = .recheck ∧ s.lc.onLine = true ∧ (s.peer p).presence = .present ∧
    (s.wantedMarks p).check = false ∧ ∀ q ∈ s.lc.requestQ, q.frame.dest = p → q.frame.body ≠ .check

theorem State.owedTally_iff (s : State) (p : Nat) :
    ((s.peer p).tallyOwed && s.lc.onLine && (s.peer p).presence == .present && !(s.wantedMarks p).tally &&
      !s.linkFrameStands p Body.isTally) = true ↔ s.owedTally p := by
  simp only [State.owedTally, Bool.and_eq_true, beq_iff_eq, Bool.not_eq_true', State.linkFrameStands_eq_false,
    Body.isTally_eq_false, and_assoc]

theorem State.owedCheck_iff (s : State) (p : Nat) :
    ((s.peer p).standing == .recheck && s.lc.onLine && (s.peer p).presence == .present && !(s.wantedMarks p).check &&
      !s.linkFrameStands p Body.isCheck) = true ↔ s.owedCheck p := by
  simp only [State.owedCheck, Bool.and_eq_true, beq_iff_eq, Bool.not_eq_true', State.linkFrameStands_eq_false,
    Body.isCheck_eq_false, and_assoc]

theorem State.askTally_owed (owed : s.owedTally p) :
    s.askTally p = (s.modWanted p fun m => { m with tally := true }).fillRequests := if_pos ((s.owedTally_iff p).2 owed)

theorem State.askTally_idle (idle : ¬s.owedTally p) : s.askTally p = s := if_neg ((s.owedTally_iff p).not.2 idle)

theorem State.askCheck_owed (owed : s.owedCheck p) :
    s.askCheck p = (s.modWanted p fun m => { m with check := true }).fillRequests := if_pos ((s.owedCheck_iff p).2 owed)

theorem State.askCheck_idle (idle : ¬s.owedCheck p) : s.askCheck p = s := if_neg ((s.owedCheck_iff p).not.2 idle)

/-! ### A readable header (R86) -/

theorem State.hearPeer_eq (s : State) (g : Header) :
    s.hearPeer g =
      if (s.peer g.source).presence ≠ .present ∧ s.lc.onLine = true then
        (s.modPeer g.source fun e => e.hear s.now g).askOwed g.source
      else s.modPeer g.source fun e => e.hear s.now g := by
  simp only [State.hearPeer, Bool.and_eq_true, bne_iff_ne]
  rfl

/-! ### CHECK and BEACON (R109, R130 to R132) -/

theorem State.onCheck_sealed {g : Header} (sealed : (s.peer g.source).sLast ≠ 0) :
    s.onCheck g = (s.modWanted g.source fun m => { m with tally := true }).fillRequests := if_neg sealed

theorem exec_checkReceived {st : Settings} {h : RxHeader} {g : Header} (hl : lineReady s st) (hf : fromPeer st h g)
    (t : Moment) (tag : g.tag = 0) (dest : g.dest = st.station) (own : st.station ≠ 0) :
    exec (.checkReceived t h) s = .next (finish ((heardFrom s st t g).onCheck g).drainTest) := by
  refine hearKind_next hl hf t (raw := .check) (b := .check) rfl (.inr dest) ?_ ?_
  · simp [destinationFits, RawBody.kind, kindCheck, kindBeacon, dest, own]
  · simp [tagFits, RawBody.kind, kindCheck, tag]

theorem exec_beaconReceived {st : Settings} {h : RxHeader} {g : Header} (hl : lineReady s st) (hf : fromPeer st h g)
    (t : Moment) (tag : g.tag = 0) (all : g.dest = 0) :
    exec (.beaconReceived t h) s = .next (finish ((heardFrom s st t g).onBeacon g).drainTest) := by
  refine hearKind_next hl hf t (raw := .beacon) (b := .beacon) rfl (.inl all) ?_ ?_
  · simp [destinationFits, RawBody.kind, all]
  · simp [tagFits, RawBody.kind, tag]

/-- What R109 asks of an exchange that a BEACON makes want a resend. -/
theorem State.wantsResend_iff (s : State) (home : Nat) (e : Exchange) :
    (e.home == home && e.state == .unsure && !s.frameStands e.tag) = true ↔
      e.home = home ∧ e.state = .unsure ∧
        ∀ q ∈ s.lc.requestQ, q.frame.tag = e.tag → q.frame.body.ofExchange = false := by
  simp only [Bool.and_eq_true, beq_iff_eq, Bool.not_eq_true', State.frameStands_eq_false, and_assoc]

/-- Settles O39: the two frames in the state that has heard their header, the header's own effect, and when frames are
asked for. -/
theorem checksAndBeacons : Obligations.ChecksAndBeacons := by
  refine ⟨fun s st t h g hl hf tag => ?_, fun s st t g => ?_, fun s p => ?_, fun s home => ?_⟩
  · intro u
    refine ⟨fun dest own => ?_, fun all => ?_⟩
    · rw [exec_checkReceived hl hf t tag dest own]
      exact ⟨fun unsealed => by rw [State.onCheck, if_pos unsealed],
        fun sealed => by rw [State.onCheck_sealed sealed]; rfl⟩
    · exact exec_beaconReceived hl hf t tag all
  · intro now first u
    have heard : (s.atMoment t).hearPeer g = u := State.hearPeer_eq _ g
    have cycle : u.cc = s.cc := heard ▸ (s.atMoment t).hearPeer_changes g .cycles (by decide)
    rw [heardFrom, heard]
    refine ⟨fun current => ?_, fun later => ?_⟩
    · rw [State.catchUpCheck, cycle, if_neg (Nat.not_lt.2 current)]
    · rw [State.catchUpCheck, cycle, if_pos later]
  · refine ⟨rfl, State.askTally_owed, fun idle => State.askTally_idle ?_, State.askCheck_owed,
      fun idle => State.askCheck_idle ?_⟩
    · rintro ⟨owed, line, present, unmarked, noFrame⟩
      rcases idle with h | h | h | h | ⟨q, hq, dest, c, r, l, body⟩
      · exact Bool.false_ne_true (h.symm.trans owed)
      · exact Bool.false_ne_true (h.symm.trans line)
      · exact h present
      · exact Bool.false_ne_true (unmarked.symm.trans h)
      · exact noFrame q hq dest c r l body
    · rintro ⟨standing, line, present, unmarked, noFrame⟩
      rcases idle with h | h | h | h | ⟨q, hq, dest, body⟩
      · exact h standing
      · exact Bool.false_ne_true (h.symm.trans line)
      · exact h present
      · exact Bool.false_ne_true (unmarked.symm.trans h)
      · exact noFrame q hq dest body
  · intro standing
    refine ⟨_, rfl, rfl, rfl, rfl, List.length_map _, fun i e at_i => ?_⟩
    simp only [List.getElem?_map, at_i, Option.map_some]
    exact ⟨fun stands => by rw [if_pos ((s.wantsResend_iff home e).2 stands)],
      fun idle => by rw [if_neg ((s.wantsResend_iff home e).not.2 idle)]⟩

end Sys2Proof.Machine
end


section
/-! ## The request queue and its sources (R80, R83, R84, R106) -/

namespace Sys2Proof.Machine

variable {s : State}

/-! ### Places in the queues -/

theorem State.offerAnswer_room {f : Frame} (room : s.lc.answerQ.length < 16) :
    s.offerAnswer f = { s with lc := { s.lc with answerQ := s.lc.answerQ ++ [⟨f, 1, some 0⟩] } } := if_pos room

theorem State.offerAnswer_full {f : Frame} (full : 16 ≤ s.lc.answerQ.length) :
    s.offerAnswer f = { s with lc := { s.lc with answerDropped := some (s.now + 1000000) } } := if_neg (Nat.not_lt.2 full)

theorem State.setRequestQ_drawn {f : QFrame} {rest : List QFrame} (drawn : f.slots ≠ none) :
    s.setRequestQ (f :: rest) = { s with lc := { s.lc with requestQ := f :: rest } } := by
  obtain ⟨k, drawn⟩ := Option.ne_none_iff_exists'.1 drawn
  simp only [State.setRequestQ, drawn]

/-- A frame that comes to the head draws its slots (R80; log 7). -/
theorem State.setRequestQ_draws {f : QFrame} {rest : List QFrame} (undrawn : f.slots = none) :
    s.setRequestQ (f :: rest) =
      { s with
        draws := s.draws + 1
        lc := { s.lc with requestQ := { f with slots := some (drawnSlots s.draws f.attempt) } :: rest } } := by
  simp only [State.setRequestQ, undrawn]

theorem Link.drivingRequest_iff (l : Link) : l.drivingRequest = true ↔ ∃ bytes start, l.tx = .driving false bytes start := by
  unfold Link.drivingRequest
  split
  · simp [*]
  next other =>
    simp only [Bool.false_eq_true, false_iff, not_exists]
    exact other

theorem State.placeBeacon_empty (empty : s.lc.requestQ = []) : s.placeBeacon = s.setRequestQ [.ofRequest beaconFrame] := by
  rw [State.placeBeacon, empty]

theorem State.placeBeacon_behind {f : QFrame} {rest : List QFrame} (queue : s.lc.requestQ = f :: rest)
    (driving : s.lc.drivingRequest = true) :
    s.placeBeacon = s.setRequestQ (f :: .ofRequest beaconFrame :: rest) := by
  rw [State.placeBeacon, queue]
  exact if_pos driving

theorem State.placeBeacon_ahead {f : QFrame} {rest : List QFrame} (queue : s.lc.requestQ = f :: rest)
    (quiet : ¬s.lc.drivingRequest = true) :
    s.placeBeacon = s.setRequestQ (.ofRequest beaconFrame :: { f with slots := none } :: rest) := by
  rw [State.placeBeacon, queue]
  exact if_neg quiet

/-! ### One place filled from its sources in their order (R84) -/

theorem State.wants_iff (s : State) (m : WantedMarks) :
    ((m.tally && (s.peer m.peer).sLast != 0) || m.check) = true ↔
      (m.tally = true ∧ (s.peer m.peer).sLast ≠ 0) ∨ m.check = true := by
  rw [Bool.or_eq_true, Bool.and_eq_true, bne_iff_ne]

theorem State.offersFrame_iff (s : State) (e : Exchange) :
    s.offersFrame e = true ↔ (e.state = .queued ∨ (e.state = .unsure ∧ e.resendWanted = true)) ∧
      ∀ q ∈ s.lc.requestQ, q.frame.tag = e.tag → q.frame.body.ofExchange = false := by
  rw [State.offersFrame, Bool.and_eq_true, Bool.not_eq_true', State.frameStands_eq_false, Bool.or_eq_true,
    Bool.and_eq_true, beq_iff_eq, beq_iff_eq]

theorem State.fillOne_shut (shut : s.lc.onLine = false ∨ 16 ≤ s.lc.requestQ.length) : s.fillOne = none := by
  have places : Config.linkQueueMax = 16 := rfl
  exact if_pos (by simpa [places] using shut)

section Room

variable (onLine : s.lc.onLine = true) (room : s.lc.requestQ.length < 16)

include onLine room

theorem State.fillOne_beacon (held : s.lc.heldBeacon = true) :
    s.fillOne = some { s with lc := { s.lc with heldBeacon := false } : State }.placeBeacon := by
  have places : Config.linkQueueMax = 16 := rfl
  rw [State.fillOne, if_neg (by simp [onLine, places, room]), if_pos held]

variable (noBeacon : s.lc.heldBeacon = false)

include noBeacon

theorem State.fillOne_tally {m : WantedMarks} (first : s.firstWanted = some m) (tally : m.tally = true)
    (sealed : (s.peer m.peer).sLast ≠ 0) :
    s.fillOne = some ((s.modWanted m.peer fun x => { x with tally := false }).queueRequest (tallyFrame (s.peer m.peer))) := by
  have places : Config.linkQueueMax = 16 := rfl
  rw [State.fillOne, if_neg (by simp [onLine, places, room]), if_neg (by simp [noBeacon]), first]
  exact if_pos (by simp [tally, sealed])

theorem State.fillOne_check {m : WantedMarks} (first : s.firstWanted = some m)
    (noTally : m.tally = false ∨ (s.peer m.peer).sLast = 0) :
    s.fillOne = some ((s.modWanted m.peer fun x => { x with check := false }).queueRequest ⟨m.peer, 0, .check⟩) := by
  have places : Config.linkQueueMax = 16 := rfl
  rw [State.fillOne, if_neg (by simp [onLine, places, room]), if_neg (by simp [noBeacon]), first]
  refine if_neg ?_
  rcases noTally with noTally | noTally <;> simp [noTally]

theorem State.fillOne_exchange (unmarked : s.firstWanted = none) :
    s.fillOne = (s.xt.exchanges.find? s.offersFrame).map fun e =>
      (s.modExchange e.tag Exchange.sent).queueRequest e.frame := by
  have places : Config.linkQueueMax = 16 := rfl
  rw [State.fillOne, if_neg (by simp [onLine, places, room]), if_neg (by simp [noBeacon]), unmarked]
  cases s.xt.exchanges.find? s.offersFrame <;> rfl

end Room

/-! ### Sixteen places are filled by sixteen fillings (R84) -/

theorem State.placeBeacon_length (s : State) : s.placeBeacon.lc.requestQ.length = s.lc.requestQ.length + 1 := by
  unfold State.placeBeacon
  split
  next empty => rw [State.setRequestQ_requestQ_length, empty]; rfl
  next head rest queue => split <;> rw [State.setRequestQ_requestQ_length, queue] <;> rfl

theorem State.queueRequest_length (s : State) (f : Frame) :
    (s.queueRequest f).lc.requestQ.length = s.lc.requestQ.length + 1 := by
  rw [State.queueRequest, State.setRequestQ_requestQ_length, List.length_append, List.length_singleton]

/-- A filling places one frame. -/
theorem State.fillOne_length {u : State} (filled : s.fillOne = some u) :
    u.lc.requestQ.length = s.lc.requestQ.length + 1 := by
  unfold State.fillOne at filled
  split at filled; · cases filled
  split at filled
  · obtain rfl := Option.some.inj filled
    exact State.placeBeacon_length _
  split at filled
  · split at filled <;> obtain rfl := Option.some.inj filled <;> exact State.queueRequest_length _ _
  split at filled
  · obtain rfl := Option.some.inj filled
    exact State.queueRequest_length _ _
  · cases filled

theorem State.fillTimes_idle (idle : s.fillOne = none) (n : Nat) : State.fillTimes n s = s := by
  cases n with
  | zero => rfl
  | succ n => rw [State.fillTimes, idle]

theorem State.fillTimes_filled {u : State} (filled : s.fillOne = some u) (n : Nat) :
    State.fillTimes (n + 1) s = State.fillTimes n u := by
  rw [State.fillTimes, filled]

/-- As many fillings as there are places left leave nothing to fill, and one more changes nothing. -/
theorem State.fillTimes_exhausts (n : Nat) : ∀ s : State, 16 ≤ s.lc.requestQ.length + n →
    (State.fillTimes n s).fillOne = none ∧ State.fillTimes (n + 1) s = State.fillTimes n s := by
  induction n with
  | zero =>
    intro s full
    have idle : s.fillOne = none := State.fillOne_shut (.inr full)
    exact ⟨idle, State.fillTimes_idle idle 1⟩
  | succ n ih =>
    intro s enough
    cases filled : s.fillOne with
    | none => simp only [State.fillTimes_idle filled, filled, and_self]
    | some u =>
      rw [State.fillTimes_filled filled, State.fillTimes_filled filled]
      exact ih u (by rw [State.fillOne_length filled]; omega)

theorem State.fillRequests_idle (idle : s.fillOne = none) : s.fillRequests = s := State.fillTimes_idle idle 16

theorem State.fillRequests_exhausts (s : State) : s.fillRequests.fillOne = none :=
  (State.fillTimes_exhausts 16 s (Nat.le_add_left _ _)).1

theorem State.fillRequests_filled {u : State} (filled : s.fillOne = some u) : s.fillRequests = u.fillRequests := by
  have enough := (State.fillTimes_exhausts 15 u (by rw [State.fillOne_length filled]; omega)).2
  exact (State.fillTimes_filled filled 15).trans enough.symm

/-- Settles O44: each queue's operations, one place filled by its source, and the filling of all that is free. -/
theorem queuesFillInOrder : Obligations.QueuesFillInOrder := by
  refine ⟨fun e => ?_, fun b => ?_, fun s t hp => event_powered hp t _,
    fun s => ⟨s.fillRequests_exhausts, State.fillRequests_idle, fun u => State.fillRequests_filled⟩,
    fun s f => ⟨State.offerAnswer_room, State.offerAnswer_full, rfl⟩,
    fun s f rest => ⟨rfl, State.setRequestQ_drawn, State.setRequestQ_draws, fun queue => ⟨fun driving => ?_, fun quiet => ?_⟩,
      State.placeBeacon_empty⟩, fun s => ⟨State.fillOne_shut, fun onLine room => ⟨State.fillOne_beacon onLine room, ?_⟩⟩⟩
  · unfold Exchange.frame
    cases e.params <;> rfl
  · cases b <;> simp [Body.ofExchange]
  · exact State.placeBeacon_behind queue (s.lc.drivingRequest_iff.2 driving)
  · refine State.placeBeacon_ahead queue fun driving => ?_
    obtain ⟨bytes, start, driving⟩ := s.lc.drivingRequest_iff.1 driving
    exact quiet bytes start driving
  · intro noBeacon wants
    obtain ⟨noMark, firstMark⟩ := find?_spec s.wants_iff s.lc.wanted
    refine ⟨fun before m after split earlier => ?_, fun unmarked => ?_⟩
    · intro e
      exact ⟨fun tally sealed => State.fillOne_tally onLine room noBeacon
          (firstMark before m after split earlier (.inl ⟨tally, sealed⟩)) tally sealed,
        fun check noTally => State.fillOne_check onLine room noBeacon
          (firstMark before m after split earlier (.inr check)) noTally⟩
    · intro offers
      obtain ⟨noOffer, firstOffer⟩ := find?_spec s.offersFrame_iff s.xt.exchanges
      have filled := State.fillOne_exchange onLine room noBeacon (noMark unmarked)
      refine ⟨fun before e after split earlier here => ?_, fun unoffered => ?_⟩
      · rw [filled, firstOffer before e after split earlier here]
        rfl
      · rw [filled, noOffer unoffered]
        rfl

end Sys2Proof.Machine
end


section
/-! ## The line and the starts of frames (R77, R79 to R81) -/

namespace Sys2Proof.Machine

variable {s : State} {st : Settings} {f : QFrame} {rest : List QFrame}

/-! ### The line (R77) -/

theorem State.lineIdle_taken (busy : s.lc.line.idle = false) (quiet : s.lc.tx = .idle)
    (past : s.lc.line.since + 24 ≤ s.now) : s.lineIdle = { s with lc := { s.lc with line := ⟨true, s.now⟩ } } := by
  have span : Config.idleSpan = 24 := rfl
  have notDriving : s.lc.isDriving = false := by rw [← Bool.not_eq_true, Link.isDriving_iff, not_not, quiet]
  rw [State.lineIdle, Link.becomeIdle, if_pos (by simp [busy, notDriving, span, past])]

theorem State.lineIdle_early (early : s.lc.line.idle = true ∨ s.lc.tx ≠ .idle ∨ s.now < s.lc.line.since + 24) :
    s.lineIdle = s := by
  have span : Config.idleSpan = 24 := rfl
  rw [State.lineIdle, Link.becomeIdle, if_neg ?_]
  rw [Bool.and_eq_true, Bool.and_eq_true, Bool.not_eq_true', Bool.not_eq_true', decide_eq_true_iff, span]
  rintro ⟨⟨busy, quiet⟩, past⟩
  rcases early with idle | driving | early
  · exact Bool.false_ne_true (busy.symm.trans idle)
  · exact Bool.false_ne_true (quiet.symm.trans (s.lc.isDriving_iff.2 driving))
  · exact Nat.not_le.2 early past

theorem Link.becomeBusy_idle {l : Link} (idle : l.line.idle = true) (now : Moment) :
    l.becomeBusy now = { l with
      line := ⟨false, now⟩, answerQ := spendSlots l.line.since 32 now l.answerQ,
      requestQ := spendSlots l.line.since 80 now l.requestQ } := if_pos idle

theorem Link.becomeBusy_busy {l : Link} (busy : l.line.idle = false) (now : Moment) :
    l.becomeBusy now = { l with line := ⟨false, now⟩ } := if_neg (by simp [busy])

/-! ### What permits a start (R79 to R81) -/

/-- The line and the station permit a start (R77, R79). -/
def Link.mayStart (l : Link) : Prop := l.onLine = true ∧ l.line.idle = true ∧ l.tx = .idle

theorem Link.permits_iff (l : Link) : l.permits = true ↔ l.mayStart := by
  have quiet : l.isDriving = false ↔ l.tx = .idle := by rw [← Bool.not_eq_true, Link.isDriving_iff, not_not]
  rw [Link.permits, Bool.and_eq_true, Bool.and_eq_true, Bool.not_eq_true', quiet, and_assoc]
  rfl

/-- The gap and the slots of a frame have run out at `now`, the line being idle since `since` (R79, R80). -/
def QFrame.readyAt (f : QFrame) (since gap now : Moment) : Prop := ∃ k, f.slots = some k ∧ since + gap + k * 40 ≤ now

theorem QFrame.ready_iff (f : QFrame) (since gap now : Moment) : f.ready since gap now = true ↔ f.readyAt since gap now := by
  have slot : Config.slotSpan = 40 := rfl
  cases drawn : f.slots <;> simp [QFrame.ready, QFrame.readyAt, drawn, slot]

/-- The head of a queue may start after the gap (R79, R80). -/
def State.headStarts (s : State) (gap : Moment) (q : List QFrame) : Prop :=
  s.lc.mayStart ∧ ∃ f rest, q = f :: rest ∧ f.readyAt s.lc.line.since gap s.now

theorem State.answerReady_head (permitted : s.lc.mayStart) (queue : s.lc.answerQ = f :: rest)
    (ready : f.readyAt s.lc.line.since 32 s.now) : s.answerReady = some f := by
  have gap : Config.answerGap = 32 := rfl
  rw [State.answerReady, queue]
  exact if_pos (by rw [Bool.and_eq_true, Link.permits_iff, QFrame.ready_iff, gap]; exact ⟨permitted, ready⟩)

theorem State.answerReady_none (waits : ¬s.headStarts 32 s.lc.answerQ) : s.answerReady = none := by
  have gap : Config.answerGap = 32 := rfl
  unfold State.answerReady
  split
  · rfl
  next f rest queue =>
  refine if_neg ?_
  rw [Bool.and_eq_true, Link.permits_iff, QFrame.ready_iff, gap]
  exact fun ⟨permitted, ready⟩ => waits ⟨permitted, f, rest, queue, ready⟩

theorem State.requestReady_iff (s : State) (st : Settings) (f : QFrame) :
    (s.lc.permits && s.answerReady.isNone && f.ready s.lc.line.since Config.requestGap s.now && s.spacingOver st) = true ↔
      s.lc.mayStart ∧ s.answerReady = none ∧ f.readyAt s.lc.line.since 80 s.now ∧ s.spacingOver st = true := by
  have gap : Config.requestGap = 80 := rfl
  rw [Bool.and_eq_true, Bool.and_eq_true, Bool.and_eq_true, Link.permits_iff, QFrame.ready_iff, gap,
    Option.isNone_iff_eq_none, and_assoc, and_assoc]

theorem State.requestReady_head (permitted : s.lc.mayStart) (noAnswer : s.answerReady = none)
    (queue : s.lc.requestQ = f :: rest) (ready : f.readyAt s.lc.line.since 80 s.now) (past : s.spacingOver st = true) :
    s.requestReady st = some f := by
  rw [State.requestReady, queue]
  exact if_pos ((s.requestReady_iff st f).2 ⟨permitted, noAnswer, ready, past⟩)

theorem State.requestReady_none
    (waits : s.answerReady ≠ none ∨ ¬s.headStarts 80 s.lc.requestQ ∨ s.spacingOver st = false) :
    s.requestReady st = none := by
  unfold State.requestReady
  split
  · rfl
  next f rest queue =>
  refine if_neg ((s.requestReady_iff st f).not.2 ?_)
  rintro ⟨permitted, noAnswer, ready, past⟩
  rcases waits with answer | later | held
  · exact answer noAnswer
  · exact later ⟨permitted, f, rest, queue, ready⟩
  · exact Bool.false_ne_true (held.symm.trans past)

theorem State.spacingOver_first (first : s.lc.lastRequest = none) : s.spacingOver st = true := by
  rw [State.spacingOver, first]

theorem State.spacingOver_iff {m : Moment} (last : s.lc.lastRequest = some m) :
    s.spacingOver st = true ↔ m + st.requestSpacing * 1000 ≤ s.now := by
  rw [State.spacingOver, last]
  exact decide_eq_true_iff

/-! ### The starts (R79 to R81) -/

theorem State.startAnswer_starts (ready : s.answerReady = some f) : s.startAnswer = s.startFrame true f := by
  rw [State.startAnswer, ready]

theorem State.startAnswer_waits (idle : s.answerReady = none) : s.startAnswer = s := by
  rw [State.startAnswer, idle]

theorem State.startRequest_starts (ready : s.requestReady st = some f) :
    s.startRequest st =
      { s.startFrame false f with lc := { (s.startFrame false f).lc with lastRequest := some s.now } } := by
  rw [State.startRequest, ready]
  rfl

theorem State.startRequest_waits (idle : s.requestReady st = none) : s.startRequest st = s := by
  rw [State.startRequest, idle]

theorem State.spacingExpiry_waits (idle : s.requestReady st = none) : s.spacingExpiry st = s := by
  rw [State.spacingExpiry, State.startRequest_waits idle, ite_self]

theorem State.spacingExpiry_spaced {m : Moment} (last : s.lc.lastRequest = some m) :
    s.spacingExpiry st = s.startRequest st := if_pos (by rw [last]; rfl)

theorem State.spacingExpiry_first (first : s.lc.lastRequest = none) : s.spacingExpiry st = s :=
  if_neg (by rw [first]; exact Bool.false_ne_true)

/-- An event of an enrolled part that is powered. -/
theorem event_enrolled {f : State → Settings → State} (hp : s.power = true) (hs : s.tp.settings = some st) (t : Moment) :
    event t (fun u => whenEnrolled u (f u)) s = .next (finish (f (s.atMoment t) st)) := by
  rw [event_powered hp, whenEnrolled_some (s := s.atMoment t) hs]

/-- Before enrolment such an event moves the clock alone (R184). -/
theorem event_unenrolled {f : State → Settings → State} (hp : s.power = true) (hs : s.tp.settings = none) (t : Moment) :
    event t (fun u => whenEnrolled u (f u)) s = .next (finish (s.atMoment t)) := by
  have unenrolled : (s.atMoment t).tp.settings = none := hs
  rw [event_powered hp, whenEnrolled, unenrolled]

/-- A start of a request and the end of its spacing, where neither starts a frame, move the clock alone. -/
theorem requestStart_waits {t : Moment} (hp : s.power = true)
    (waits : ∀ st, s.tp.settings = some st → (s.atMoment t).requestReady st = none) :
    exec (.requestStart t) s = .next (finish (s.atMoment t)) ∧
      exec (.spacingExpiry t) s = .next (finish (s.atMoment t)) := by
  cases hs : s.tp.settings with
  | none => exact ⟨event_unenrolled (f := State.startRequest) hp hs t, event_unenrolled (f := State.spacingExpiry) hp hs t⟩
  | some st =>
    refine ⟨(event_enrolled (f := State.startRequest) hp hs t).trans ?_,
      (event_enrolled (f := State.spacingExpiry) hp hs t).trans ?_⟩
    · rw [State.startRequest_waits (waits st hs)]
    · rw [State.spacingExpiry_waits (waits st hs)]

/-- Settles O42: the line by its state and its last transition, then the starts by what permits them. -/
theorem lineAndStarts : Obligations.LineAndStarts := by
  intro s t hp now u spend busy bytes ready permitted mayStart
  have spends (gap : Moment) (q : List QFrame) : spendSlots s.lc.line.since gap now q = spend gap q := by
    cases q <;> rfl
  have busied (idle : s.lc.line.idle = true) : u.lineBusy = busy := by
    rw [State.lineBusy, Link.becomeBusy_idle (l := u.lc) idle]
    exact congrArg₂ (fun a r => { u with lc := { s.lc with line := ⟨false, now⟩, answerQ := a, requestQ := r } })
      (spends 32 _) (spends 80 _)
  have starts (answer : Bool) (f : QFrame) (idle : s.lc.line.idle = true) :
      u.startFrame answer f = { busy with lc := { busy.lc with tx := .driving answer (bytes f) now } } := by
    rw [← busied idle]
    rfl
  refine ⟨fun line quiet past => ?_, fun early => ?_, fun idle => ?_, fun line => ?_,
    fun f rest may queue head => ⟨?_, ?_⟩, fun st f rest hs may noAnswer queue head => ?_, fun waits => ?_,
    fun waits => ?_, fun first => ?_⟩
  · rw [show exec (.lineIdle t) s = _ from event_powered hp t _, State.lineIdle_taken (s := s.atMoment t) line quiet past]
    rfl
  · rw [show exec (.lineIdle t) s = _ from event_powered hp t _, State.lineIdle_early (s := s.atMoment t) early]
  · rw [show exec (.lineBusy t) s = _ from event_powered hp t _, busied idle]
  · rw [show exec (.lineBusy t) s = _ from event_powered hp t _, State.lineBusy, Link.becomeBusy_busy (l := u.lc) line]
    rfl
  · rw [show exec (.answerStart t) s = _ from event_powered hp t _,
      State.startAnswer_starts (State.answerReady_head (s := u) may queue head), starts true f may.2.1]
  · refine (requestStart_waits hp fun st _ => State.requestReady_none (.inl ?_)).1
    rw [State.answerReady_head (s := u) may queue head]
    nofun
  · have free : u.answerReady = none := State.answerReady_none fun ⟨_, a, more, answers, starts⟩ =>
      noAnswer a more answers starts
    intro started
    have run (past : u.spacingOver st = true) : u.startRequest st = started := by
      rw [State.startRequest_starts (State.requestReady_head (s := u) may free queue head past), starts false f may.2.1]
      rfl
    refine ⟨fun first => ?_, fun m last => ⟨fun past => ?_, fun held => ?_⟩⟩
    · rw [show exec (.requestStart t) s = _ from event_enrolled (f := State.startRequest) hp hs t,
        run (State.spacingOver_first (s := u) first)]
    · have past : u.spacingOver st = true := (State.spacingOver_iff (s := u) last).2 past
      rw [show exec (.requestStart t) s = _ from event_enrolled (f := State.startRequest) hp hs t,
        show exec (.spacingExpiry t) s = _ from event_enrolled (f := State.spacingExpiry) hp hs t,
        State.spacingExpiry_spaced (s := u) last, run past]
      exact ⟨rfl, rfl⟩
    · refine requestStart_waits hp fun x hx => State.requestReady_none (.inr (.inr ?_))
      obtain rfl := Option.some.inj (hs.symm.trans hx)
      rw [← Bool.not_eq_true, State.spacingOver_iff (s := u) last]
      exact Nat.not_le.2 held
  · rw [show exec (.answerStart t) s = _ from event_powered hp t _,
      State.startAnswer_waits (State.answerReady_none (s := u) waits)]
  · refine requestStart_waits hp fun st hs => State.requestReady_none ?_
    rcases waits with ⟨may, f, rest, queue, head⟩ | waits | unenrolled
    · rw [State.answerReady_head (s := s.atMoment t) may queue head]
      exact .inl nofun
    · exact .inr (.inl waits)
    · rw [unenrolled] at hs
      cases hs
  · cases hs : s.tp.settings with
    | none => exact event_unenrolled (f := State.spacingExpiry) hp hs t
    | some st =>
      rw [show exec (.spacingExpiry t) s = _ from event_enrolled (f := State.spacingExpiry) hp hs t,
        State.spacingExpiry_first (s := s.atMoment t) first]

end Sys2Proof.Machine
end


section
/-! ## The ends of frames (R76, R77, R82, R107, R132) -/

namespace Sys2Proof.Machine

variable {s : State} {f : QFrame} {rest : List QFrame} {bytes : List Byte} {start : Moment} {answer : Bool}

/-! ### Collided frames (R79, R80, R82) -/

theorem State.answerCollided_again (queue : s.lc.answerQ = f :: rest) (again : f.attempt < 10) :
    s.answerCollided =
      { s with
        draws := s.draws + 1
        lc := { s.lc with
          answerQ :=
            { f with attempt := f.attempt + 1, slots := some (drawnSlots s.draws (f.attempt + 1)) } :: rest } } := by
  rw [State.answerCollided, queue]
  exact if_neg (Nat.not_le.2 again)

theorem State.answerCollided_last (queue : s.lc.answerQ = f :: rest) (last : 10 ≤ f.attempt) :
    s.answerCollided = { s with lc := { s.lc with answerQ := rest, sendFailed := some (s.now + 1000000) } } := by
  rw [State.answerCollided, queue]
  exact if_pos last

theorem State.requestCollided_again (queue : s.lc.requestQ = f :: rest) (again : f.attempt < 10) :
    s.requestCollided =
      { s with
        draws := s.draws + 1
        lc := { s.lc with
          requestQ :=
            { f with attempt := f.attempt + 1, slots := some (drawnSlots s.draws (f.attempt + 1)) } :: rest } } := by
  rw [State.requestCollided, queue]
  exact if_neg (Nat.not_le.2 again)

theorem State.requestCollided_last (queue : s.lc.requestQ = f :: rest) (last : 10 ≤ f.attempt) :
    s.requestCollided = (((s.setRequestQ rest).raiseSendFailed).reportDiscard f.frame).fillRequests := by
  rw [State.requestCollided, queue]
  exact if_pos last

/-! ### The end of driving (R82) -/

theorem State.collide_idle (idle : s.lc.tx = .idle) : s.collide = s := by
  rw [State.collide, idle]

theorem State.collide_answer (driving : s.lc.tx = .driving true bytes start)
    (within : s.now ≤ start + (24 + 8 * bytes.length) * 2) : s.collide = (s.stopDriving s.now).answerCollided := by
  rw [State.collide, driving]
  exact if_pos within

theorem State.collide_request (driving : s.lc.tx = .driving false bytes start)
    (within : s.now ≤ start + (24 + 8 * bytes.length) * 2) : s.collide = (s.stopDriving s.now).requestCollided := by
  rw [State.collide, driving]
  exact if_pos within

theorem State.collide_after (driving : s.lc.tx = .driving answer bytes start)
    (after : start + (24 + 8 * bytes.length) * 2 < s.now) : s.collide = s := by
  rw [State.collide, driving]
  exact if_neg (Nat.not_le.2 after)

theorem State.frameSent_idle (idle : s.lc.tx = .idle) : s.frameSent = s := by
  rw [State.frameSent, idle]

theorem State.frameSent_before (driving : s.lc.tx = .driving answer bytes start)
    (before : s.now < start + (24 + 8 * bytes.length) * 2) : s.frameSent = s := by
  rw [State.frameSent, driving]
  exact if_neg (Nat.not_le.2 before)

theorem State.frameSent_answer (driving : s.lc.tx = .driving true bytes start)
    (whole : start + (24 + 8 * bytes.length) * 2 ≤ s.now) :
    s.frameSent = (s.stopDriving (start + (24 + 8 * bytes.length) * 2 - 1)).answerSent := by
  rw [State.frameSent, driving]
  exact if_pos whole

theorem State.frameSent_request (driving : s.lc.tx = .driving false bytes start)
    (whole : start + (24 + 8 * bytes.length) * 2 ≤ s.now) :
    s.frameSent = (s.stopDriving (start + (24 + 8 * bytes.length) * 2 - 1)).requestSent
      (start + (24 + 8 * bytes.length) * 2) := by
  rw [State.frameSent, driving]
  exact if_pos whole

theorem State.requestSent_head {m : Moment} (queue : s.lc.requestQ = f :: rest) :
    s.requestSent m = ((s.setRequestQ rest).reportSent f.frame m).fillRequests := by
  rw [State.requestSent, queue]

/-! ### What the owner of a frame is told (R82, R107, R130, R132) -/

theorem State.report_exchange {f : Frame} (owned : f.body.ofExchange = true) (m : Moment) :
    s.reportSent f m = s.reportFrame f.tag m ∧ s.reportDiscard f = s.reportFrame f.tag s.now := by
  unfold State.reportSent State.reportDiscard
  cases body : f.body
  case ask => exact ⟨rfl, rfl⟩
  case take => exact ⟨rfl, rfl⟩
  case free => exact ⟨rfl, rfl⟩
  case credit => exact ⟨rfl, rfl⟩
  all_goals
    rw [body] at owned
    cases owned

theorem State.report_tally {f : Frame} {c : Nat} {r l : Total} (body : f.body = .tally c r l) (m : Moment) :
    s.reportSent f m = s.modPeer f.dest (fun e => { e with tallyOwed := e.tallyOwed && c != e.sLast }) ∧
      s.reportDiscard f = s.askTally f.dest := by
  rw [State.reportSent, State.reportDiscard, body]
  exact ⟨rfl, rfl⟩

theorem State.report_check {f : Frame} (body : f.body = .check) (m : Moment) :
    s.reportSent f m = s ∧ s.reportDiscard f = s.askCheck f.dest := by
  rw [State.reportSent, State.reportDiscard, body]
  exact ⟨rfl, rfl⟩

theorem State.report_beacon {f : Frame} (body : f.body = .beacon) (m : Moment) :
    s.reportSent f m = s ∧ s.reportDiscard f = s := by
  rw [State.reportSent, State.reportDiscard, body]
  exact ⟨rfl, rfl⟩

theorem collision_runs {t : Moment} {v : State} (hp : s.power = true) (ran : (s.atMoment t).collide = v) :
    exec (.collision t) s = .next (finish v.drainTest) := ran ▸ event_powered hp t fun s => s.collide.drainTest

theorem frameSent_runs {t : Moment} {v : State} (hp : s.power = true) (ran : (s.atMoment t).frameSent = v) :
    exec (.frameSent t) s = .next (finish v.drainTest) := ran ▸ event_powered hp t fun s => s.frameSent.drainTest

/-- Settles O43: the two ends of a frame by the moment and the queue they come from, and the reports to its owner. -/
theorem collisionsAndSentFrames : Obligations.CollisionsAndSentFrames := by
  refine ⟨fun s t answer bytes start hp driving => ?_,
    fun s t hp idle => ⟨collision_runs hp (State.collide_idle (s := s.atMoment t) idle),
      frameSent_runs hp (State.frameSent_idle (s := s.atMoment t) idle)⟩,
    fun s f m => ⟨fun owned => State.report_exchange owned m, fun c r l body => State.report_tally body m,
      fun body => State.report_check body m, fun body => State.report_beacon body m⟩⟩
  intro now last stopped drawn
  let u := s.atMoment t
  refine ⟨?_, ?_, ?_, ?_, fun after => collision_runs hp (State.collide_after (s := u) driving after),
    fun before => frameSent_runs hp (State.frameSent_before (s := u) driving before)⟩
  · rintro within rfl f rest queue
    have collides := State.collide_answer (s := u) driving within
    exact ⟨fun again => collision_runs hp (collides.trans (State.answerCollided_again (s := u.stopDriving now) queue again)),
      fun tenth => collision_runs hp (collides.trans (State.answerCollided_last (s := u.stopDriving now) queue tenth))⟩
  · rintro within rfl f rest queue
    have collides := State.collide_request (s := u) driving within
    exact ⟨fun again => collision_runs hp (collides.trans (State.requestCollided_again (s := u.stopDriving now) queue again)),
      fun tenth => collision_runs hp (collides.trans (State.requestCollided_last (s := u.stopDriving now) queue tenth))⟩
  · rintro whole rfl
    exact frameSent_runs hp (State.frameSent_answer (s := u) driving whole)
  · rintro whole rfl f rest queue
    exact frameSent_runs hp ((State.frameSent_request (s := u) driving whole).trans
      (State.requestSent_head (s := u.stopDriving (last - 1)) queue))

end Sys2Proof.Machine
end


section
/-! ## The timers of the link (R82, R83, R85, R89, R91, R121) -/

namespace Sys2Proof.Machine

variable {s : State} {d : Moment}

theorem State.beaconTime_due (beacon : s.lc.beaconAt = some d) (due : d ≤ s.now) : s.beaconTime = s.beaconDue d := by
  rw [State.beaconTime, beacon]
  exact if_pos due

theorem State.beaconTime_early (early : ∀ d, s.lc.beaconAt = some d → s.now < d) : s.beaconTime = s := by
  unfold State.beaconTime
  split
  next d beacon => exact if_neg (Nat.not_le.2 (early d beacon))
  · rfl

theorem State.listenOver_due (listening : s.lc.station = .listening) (ends : s.lc.listenEnd = some d) (due : d ≤ s.now) :
    s.listenOver =
      (({ s with lc := { s.lc with station := .active, listenEnd := none } : State }.beaconDue d).askOwedAll).linkResult
        .joined := by
  rw [State.listenOver, listening, ends]
  exact if_pos due

theorem State.listenOver_early (early : s.lc.station ≠ .listening ∨ ∀ d, s.lc.listenEnd = some d → s.now < d) :
    s.listenOver = s := by
  unfold State.listenOver
  split
  next d listening ends =>
    rcases early with away | early
    · exact absurd listening away
    · exact if_neg (Nat.not_le.2 (early d ends))
  · rfl

theorem State.sendFailedExpiry_true (failed : s.lc.sendFailed = some d) :
    s.sendFailedExpiry = { s with lc := { s.lc with sendFailed := if d ≤ s.now then none else some d } } := by
  rw [State.sendFailedExpiry, failed]
  rfl

theorem State.sendFailedExpiry_false (clear : s.lc.sendFailed = none) : s.sendFailedExpiry = s := by
  have same : expired s.now s.lc.sendFailed = s.lc.sendFailed := by rw [clear]; rfl
  rw [State.sendFailedExpiry, same]

theorem State.answerDroppedExpiry_true (dropped : s.lc.answerDropped = some d) :
    s.answerDroppedExpiry = { s with lc := { s.lc with answerDropped := if d ≤ s.now then none else some d } } := by
  rw [State.answerDroppedExpiry, dropped]
  rfl

theorem State.answerDroppedExpiry_false (clear : s.lc.answerDropped = none) : s.answerDroppedExpiry = s := by
  have same : expired s.now s.lc.answerDropped = s.lc.answerDropped := by rw [clear]; rfl
  rw [State.answerDroppedExpiry, same]

/-- A BEACON is held or stands in the request queue (R89). -/
theorem State.beaconStands_iff (s : State) :
    (s.lc.heldBeacon || s.lc.requestQ.any fun q => q.frame.body == .beacon) = true ↔
      s.lc.heldBeacon = true ∨ ∃ q ∈ s.lc.requestQ, q.frame.body = .beacon := by
  simp only [Bool.or_eq_true, List.any_eq_true, beq_iff_eq]

theorem State.makeBeacon_stands (stands : s.lc.heldBeacon = true ∨ ∃ q ∈ s.lc.requestQ, q.frame.body = .beacon) :
    s.makeBeacon = s := if_pos (s.beaconStands_iff.2 stands)

theorem State.makeBeacon_placed (absent : ¬(s.lc.heldBeacon = true ∨ ∃ q ∈ s.lc.requestQ, q.frame.body = .beacon))
    (room : s.lc.requestQ.length < 16) : s.makeBeacon = s.placeBeacon :=
  (if_neg (s.beaconStands_iff.not.2 absent)).trans (if_pos room)

theorem State.makeBeacon_held (absent : ¬(s.lc.heldBeacon = true ∨ ∃ q ∈ s.lc.requestQ, q.frame.body = .beacon))
    (full : 16 ≤ s.lc.requestQ.length) : s.makeBeacon = { s with lc := { s.lc with heldBeacon := true } } :=
  (if_neg (s.beaconStands_iff.not.2 absent)).trans (if_neg (Nat.not_lt.2 full))

theorem PeerEntry.absentAt_due {e : PeerEntry} {now : Moment} (present : e.presence = .present)
    (heard : e.lastHeard = some d) (due : d ≤ now) :
    e.absentAt now = { e with presence := .absent, lastHeard := none } := by
  rw [PeerEntry.absentAt, present, heard]
  exact if_pos due

theorem PeerEntry.absentAt_early {e : PeerEntry} {now : Moment}
    (early : e.presence ≠ .present ∨ ∀ d, e.lastHeard = some d → now < d) : e.absentAt now = e := by
  unfold PeerEntry.absentAt
  split
  next d present heard =>
    rcases early with away | early
    · exact absurd present away
    · exact if_neg (Nat.not_le.2 (early d heard))
  · rfl

/-- Settles O45: each timer when its end is reached and before it, the BEACON that is made, and the peers asked. -/
theorem linkTimers : Obligations.LinkTimers := by
  refine ⟨fun s t peer hp => ?_,
    fun s => ⟨State.makeBeacon_stands, State.makeBeacon_placed, State.makeBeacon_held⟩, fun s => rfl,
    fun e now => ⟨fun d => PeerEntry.absentAt_due, PeerEntry.absentAt_early⟩⟩
  intro now u next
  have runs {f : State → State} {v : State} (ran : f u = v) : event t f s = .next (finish v) :=
    ran ▸ event_powered hp t f
  exact ⟨fun d beacon due => runs (State.beaconTime_due (s := u) beacon due),
    fun early => runs (State.beaconTime_early (s := u) early),
    fun d listening ends due => runs (State.listenOver_due (s := u) listening ends due),
    fun early => runs (State.listenOver_early (s := u) early),
    fun d failed => runs (State.sendFailedExpiry_true (s := u) failed),
    fun clear => runs (State.sendFailedExpiry_false (s := u) clear),
    fun d dropped => runs (State.answerDroppedExpiry_true (s := u) dropped),
    fun clear => runs (State.answerDroppedExpiry_false (s := u) clear),
    runs (f := State.noiseExpiry) rfl, runs (f := (·.peerAbsent peer.toNat)) rfl⟩

end Sys2Proof.Machine
end


section
/-! ## The blocks of the till commands (R180) -/

namespace Sys2Proof.Machine

/-! ### A block in its parts -/

/-- The bytes of a block that its CRC covers, the parameter length written as `n` (R180). -/
def coveredBytes (code : Byte) (token : Token) (n : Byte) (params : List Byte) : List Byte :=
  code :: spellNum 4 token.toNat ++ n :: params

section Covered

variable (code n : Byte) (token : Token) (params rest : List Byte)

theorem coveredBytes_length : (coveredBytes code token n params).length = 6 + params.length := by
  simp [coveredBytes]
  omega

theorem coveredBytes_append :
    coveredBytes code token n (params ++ rest) = coveredBytes code token n params ++ rest := by simp [coveredBytes]

theorem coveredBytes_eq : coveredBytes code token n params =
    spellNum 1 code.toNat ++ spellNum 4 token.toNat ++ spellNum 1 n.toNat ++ params := by
  simp [coveredBytes, spellNum_one]

theorem coveredBytes_code : fieldAt (coveredBytes code token n params) 0 1 = code.toNat := by
  have small := code.isLt
  rw [coveredBytes_eq, List.append_assoc, List.append_assoc, fieldAt_here (spellNum_length _ _), beNat_spellNum]
  omega

theorem coveredBytes_count : fieldAt (coveredBytes code token n params) 5 1 = n.toNat := by
  have small := n.isLt
  rw [coveredBytes_eq, List.append_assoc, fieldAt_at rfl (by simp) (spellNum_length _ _), beNat_spellNum]
  omega

theorem coveredBytes_params : (coveredBytes code token n params).drop 6 = params := by
  rw [coveredBytes_eq]
  exact List.drop_left' (by simp)

theorem blockToken_coveredBytes : blockToken (code :: spellNum 4 token.toNat ++ rest) = token := by
  have written : code :: spellNum 4 token.toNat ++ rest = [code] ++ (spellNum 4 token.toNat ++ rest) := rfl
  rw [blockToken, if_neg (by simp), fieldAt_at written (off := 1) rfl (spellNum_length _ _), ofNat_beNat_spellNum (by rfl)]

end Covered

/-- Six bytes or more are a code, a token, a parameter length and what follows. -/
theorem exists_coveredBytes (block : List Byte) (long : 6 ≤ block.length) :
    ∃ code token n rest, block = coveredBytes code token n rest := by
  match block, long with
  | code :: a :: b :: c :: d :: n :: rest, _ =>
    refine ⟨code, .ofNat _ (beNat [a, b, c, d]), n, rest, ?_⟩
    have fits : beNat [a, b, c, d] < 2 ^ 32 := (beNat_lt [a, b, c, d]).trans_eq (by norm_num)
    have written : spellNum 4 (BitVec.ofNat 32 (beNat [a, b, c, d])).toNat = [a, b, c, d] := by
      rw [BitVec.toNat_ofNat, Nat.mod_eq_of_lt fits]
      exact spellNum_beNat [a, b, c, d]
    rw [coveredBytes, written]
    rfl

/-! ### The tests of a block -/

theorem parseBlock_short {block : List Byte} (short : block.length < 8) : parseBlock block = none :=
  if_neg fun whole => absurd whole.1 (Nat.not_le.2 short)

/-- A block is whole when its length is that of its parameters and its CRC is theirs; the rest is the table's. -/
theorem parseBlock_coveredBytes (code n : Byte) (token : Token) (params : List Byte) {crc : List Byte}
    (two : crc.length = 2) :
    parseBlock (coveredBytes code token n params ++ crc) =
      if n.toNat = params.length ∧ crc = spellNum 2 (crc16 (coveredBytes code token n params)).toNat then
        parseCommand code.toNat params
      else none := by
  have length := coveredBytes_length code n token params
  have count : fieldAt (coveredBytes code token n params ++ crc) 5 1 = n.toNat := by
    rw [← coveredBytes_append, coveredBytes_count]
  have first : fieldAt (coveredBytes code token n params ++ crc) 0 1 = code.toNat := by
    rw [← coveredBytes_append, coveredBytes_code]
  have rest : (coveredBytes code token n params ++ crc).drop 6 = params ++ crc := by
    rw [← coveredBytes_append, coveredBytes_params]
  have short : (crc16 (coveredBytes code token n params)).toNat % 256 ^ 2 =
      (crc16 (coveredBytes code token n params)).toNat := Nat.mod_eq_of_lt (BitVec.isLt _)
  have sum : beNat crc = (crc16 (coveredBytes code token n params)).toNat ↔
      crc = spellNum 2 (crc16 (coveredBytes code token n params)).toNat :=
    ⟨fun same => by rw [← same, ← two, spellNum_beNat], fun same => by rw [same, beNat_spellNum, short]⟩
  simp only [parseBlock, count, first, rest, List.length_append, length, two]
  by_cases places : n.toNat = params.length
  · rw [places, ← length, fieldAt_last rfl two, List.take_left, List.take_left]
    refine if_congr ⟨fun ⟨_, _, same⟩ => ⟨rfl, sum.1 same⟩, fun ⟨_, same⟩ => ⟨?_, ?_, sum.2 same⟩⟩ rfl rfl <;> omega
  · rw [if_neg (fun ⟨_, total, _⟩ => places (by omega)), if_neg (fun h => places h.1)]

/-! ### The table of the commands -/

/-- The codes of the commands, each with the length of its parameters (R180). -/
def commandTable : List (Nat × Nat) :=
  [(0x01, 49), (0x02, 0), (0x03, 0), (0x04, 0), (0x05, 10), (0x06, 13), (0x07, 6), (0x08, 6), (0x09, 6),
    (0x0A, 6), (0x0B, 20), (0x0C, 15), (0x0D, 8), (0x0E, 0), (0x0F, 0), (0x10, 6), (0x11, 0), (0x12, 0),
    (0x13, 1), (0x14, 1), (0x15, 15), (0x16, 0), (0x17, 2), (0x18, 0), (0x19, 0), (0x1A, 17)]

theorem Command.mem_commandTable (c : Command) : (c.code.toNat, c.params.length) ∈ commandTable := by
  cases c <;> simp [Command.code, Command.params, commandTable]

/-- The parameters of a command are read as that command. -/
theorem parseCommand_params (c : Command) : parseCommand c.code.toNat c.params = some c := by
  cases c <;>
    simp [parseCommand, Command.code, Command.params, fieldAt_skip, fieldAt_here, fieldAt_whole, ofNat_beNat_spellNum]

/-- Parameters that are read as a command are spelled by it, under its code. -/
theorem params_of_parseCommand {code : Nat} {params : List Byte} {c : Command}
    (parsed : parseCommand code params = some c) : params = c.params ∧ code = c.code.toNat := by
  have spelled {x : Command} {n : Nat} (length : params.length = n) (same : x.params = params.take n) :
      params = x.params := (same.trans (List.take_of_length_le length.le)).symm
  unfold parseCommand at parsed
  split at parsed
  case h_27 => cases parsed
  all_goals
    next length =>
    obtain rfl := Option.some.inj parsed
    refine ⟨spelled length ?_, rfl⟩
    simp [Command.params, spell_first, spell_next, length, -List.append_assoc, -BitVec.toNat_ofNat]

/-! ### A command and its block -/

theorem Command.params_short (c : Command) : c.params.length < 256 := by
  cases c <;> simp [Command.params]

theorem Command.block_eq (token : Token) (c : Command) :
    c.block token = withCrc (coveredBytes c.code token (.ofNat _ c.params.length) c.params) := by
  simp [Command.block, coveredBytes, spellNum]

theorem parseBlock_block (token : Token) (c : Command) : parseBlock (c.block token) = some c := by
  have short := c.params_short
  have count : (BitVec.ofNat 8 c.params.length).toNat = c.params.length := Nat.mod_eq_of_lt short
  rw [c.block_eq, withCrc, parseBlock_coveredBytes _ _ _ _ (spellNum_length _ _), if_pos ⟨count, rfl⟩, parseCommand_params]

theorem blockToken_block (token : Token) (c : Command) : blockToken (c.block token) = token := by
  rw [c.block_eq, withCrc, ← coveredBytes_append]
  exact blockToken_coveredBytes _ _ _

/-- A block that is read as a command is that command's block. -/
theorem block_of_parseBlock {block : List Byte} {c : Command} (parsed : parseBlock block = some c) :
    block = c.block (blockToken block) := by
  have long : 8 ≤ block.length := Nat.not_lt.1 fun short => by rw [parseBlock_short short] at parsed; cases parsed
  obtain ⟨code, token, n, rest, rfl⟩ := exists_coveredBytes block (by omega)
  obtain ⟨params, crc, rfl, two⟩ : ∃ params crc, rest = params ++ crc ∧ crc.length = 2 := by
    rw [coveredBytes_length] at long
    exact ⟨rest.take (rest.length - 2), rest.drop (rest.length - 2), (List.take_append_drop _ _).symm, by
      rw [List.length_drop]; omega⟩
  rw [coveredBytes_append, parseBlock_coveredBytes _ _ _ _ two, Option.ite_none_right_eq_some] at parsed
  obtain ⟨⟨places, sum⟩, parsed⟩ := parsed
  obtain ⟨rfl, codes⟩ := params_of_parseCommand parsed
  have count : BitVec.ofNat 8 c.params.length = n := by rw [← places, BitVec.ofNat_toNat, BitVec.setWidth_eq]
  have same : code = c.code := BitVec.eq_of_toNat_eq codes
  have written : blockToken (coveredBytes code token n (c.params ++ crc)) = token := blockToken_coveredBytes _ _ _
  rw [written, c.block_eq, count, ← same, withCrc, ← sum, coveredBytes_append]

/-! ### What a written block does (R180) -/

/-- A command of its own is the write transfer of the command it names. -/
theorem exec_instr (t : Moment) (token : Token) (c : Command) (s : State) :
    exec (c.instr t token) s = event t (State.write token (runCommand token c)) s := by
  cases c <;> rfl

theorem exec_block {block : List Byte} {c : Command} (parsed : parseBlock block = some c) (t : Moment) (s : State) :
    exec (.malformedBlock t (0xC1#8 :: block)) s = exec (c.instr t (blockToken block)) s := by
  have run : runBlock block = runCommand (blockToken block) c := by rw [runBlock, parsed]
  rw [exec_instr, ← run]
  rfl

/-- The digits of a cycle or trail number are digits: the other commands have none (R180; log 29). -/
def Command.wholeDigits : Command → Prop
  | .issue _ v => readCycle v ≠ none
  | .setRate _ _ v => readCycle v ≠ none
  | .refund _ n _ => bcdNat? 8 n.toNat ≠ none
  | _ => True

theorem enrolled_none {s : State} (h : s.tp.settings = none) (f : Settings → Effect) :
    enrolled f s = (s, .plain .notEnrolled) := by
  rw [enrolled, h]

/-- The enrolment test of the commands that have it (R184). -/
theorem runCommand_notEnrolled {s : State} (unenrolled : s.tp.settings = none) {c : Command} (digits : c.wholeDigits)
    (enrol : ∀ f, c ≠ .enrol f) (status : c ≠ .status) (restart : c ≠ .restart) (wipe : c ≠ .wipe) (token : Token) :
    runCommand token c s = (s, .plain .notEnrolled) := by
  cases c
  case enrol f => exact absurd rfl (enrol f)
  case status => exact absurd rfl status
  case restart => exact absurd rfl restart
  case wipe => exact absurd rfl wipe
  case issue a v =>
    obtain ⟨n, read⟩ := Option.ne_none_iff_exists'.1 digits
    exact (withCycle_good read _ s).trans (enrolled_none unenrolled _)
  case setRate r f v =>
    obtain ⟨n, read⟩ := Option.ne_none_iff_exists'.1 digits
    exact (withCycle_good read _ s).trans (enrolled_none unenrolled _)
  case refund r k a =>
    obtain ⟨n, read⟩ := Option.ne_none_iff_exists'.1 digits
    exact (withTrail_good read _ s).trans (enrolled_none unenrolled _)
  all_goals
    simp only [runCommand, cmdJoin, cmdDrain, cmdLeave, cmdLoad, cmdCashout, cmdFreeze, cmdThaw, ownCard, cmdEnquire,
      cmdAuthorize, cmdCapture, cmdVoid, cmdCloseDay, cmdReport, cmdReadStatement, cmdReadResult, cmdPeerStatus,
      cmdClearPeer, cmdAdjust, withPeer, cmdClearMonitor, enrolled_none unenrolled]

theorem runCommand_malformed {c : Command} (digits : ¬c.wholeDigits) (token : Token) (s : State) :
    runCommand token c s = (s, .refuse .malformed) := by
  cases c
  case issue a v => exact withCycle_bad (not_not.1 digits) _ s
  case setRate r f v => exact withCycle_bad (not_not.1 digits) _ s
  case refund r k a => exact withTrail_bad (not_not.1 digits) _ s
  all_goals exact absurd trivial digits

/-- Settles O11: a block is its covered bytes and their CRC, and the table reads and spells each command's parameters. -/
theorem writtenBlocksAreTheirCommands : Obligations.WrittenBlocksAreTheirCommands := by
  refine ⟨fun s t block c parsed => exec_block parsed t s,
    fun token c => ⟨parseBlock_block token c, blockToken_block token c⟩, fun block c => block_of_parseBlock,
    fun block => parseBlock_short, fun code n token params crc two => ?_,
    fun code token rest => blockToken_coveredBytes code token rest, fun block short => if_pos short,
    fun s t token c hp hi unenrolled enrol status restart wipe => ?_⟩
  · have parsed := parseBlock_coveredBytes code n token params two
    refine ⟨fun places => parsed.trans (if_neg fun h => places h.1), fun sum => parsed.trans (if_neg fun h => sum h.2),
      fun missing => Option.eq_none_iff_forall_ne_some.2 fun c found => ?_⟩
    obtain ⟨_, read⟩ := Option.ite_none_right_eq_some.1 (parsed.symm.trans found)
    obtain ⟨rfl, codes⟩ := params_of_parseCommand read
    exact missing (codes ▸ c.mem_commandTable)
  · intro digits
    have same : digits ↔ c.wholeDigits := by cases c <;> exact Iff.rfl
    rw [exec_instr, same]
    exact ⟨fun whole => write_refuses hp hi
        (runCommand_notEnrolled (s := begun s t) unenrolled whole enrol status restart wipe token),
      fun bad => write_refuses hp hi (runCommand_malformed bad token (begun s t))⟩

end Sys2Proof.Machine
end


section
/-! ## Peers and the monitor at the till (R97, R119, R129, R133, R134, R173, R183) -/

namespace Sys2Proof.Machine

variable {s : State} {st : Settings}

/-- A signed amount is twelve digits behind the sign byte 00 or 01 (R97). -/
theorem readSigned_iff (a : AmountField) (v : Int) :
    readSigned a = some v ↔ ∃ n, bcdNat? 12 (a.toNat % 2 ^ 48) = some n ∧
      ((a.toNat / 2 ^ 48 = 0 ∧ v = n) ∨ (a.toNat / 2 ^ 48 = 1 ∧ v = -(n : Int))) := by
  rw [readSigned]
  cases bcdNat? 12 (a.toNat % 2 ^ 48) with
  | none => simp
  | some n =>
    match a.toNat / 2 ^ 48 with
    | 0 => simp [eq_comm]
    | 1 => simp [eq_comm]
    | _ + 2 => simp

/-! ### The lists of PEER_STATUS and STATUS (R134, R183) -/

/-- The cycles of an enrolled part (R183). -/
theorem cycleValues_eq (cc : Cycles) : cycleValues cc =
    [.num1 cc.phase.code, .cycle (some cc.openCycle), .cycle (cc.sealing.map SealingSet.cycle),
      .cycle cc.pendingTarget, .flag ((cc.sealing.map SealingSet.forced).getD false)] ++
    (cc.active.getD ⟨0, 0⟩).values ++ .num1 cc.schedule.length :: (cc.schedule.map Staged.values).flatten := by
  unfold cycleValues
  cases cc.sealing <;> rfl

/-- The cycles before enrolment (R183). -/
theorem cycleValues_unenrolled : cycleValues { Cycles.reset with openCycle := 0 } =
    [.num1 0, .cycle (some 0), .cycle none, .cycle none, .flag false, .num2 0, .num1 0, .num1 0] := rfl

theorem State.own_eq (s : State) : s.own = (s.tp.settings.map Settings.station).getD 0 := by
  unfold State.own
  cases s.tp.settings <;> rfl

theorem StatementUnit.oldestValues_none {su : StatementUnit} (empty : su.slots.head? = none) :
    su.oldestValues = [.flag false, .num1 0, .num2 0] := by
  rw [StatementUnit.oldestValues, empty]
  rfl

theorem StatementUnit.oldestValues_some {su : StatementUnit} {x : Slot} (oldest : su.slots.head? = some x) :
    su.oldestValues = [.flag true, .num1 x.statement.kind.code, .num2 x.statement.number] := by
  rw [StatementUnit.oldestValues, oldest]
  rfl

/-! ### Commands that name a peer (R119) -/

theorem withPeer_refuses {t : Moment} {token : Token} {p : BitVec 8} (h : tillReady s st)
    (bad : p.toNat = 0 ∨ 63 < p.toNat ∨ p.toNat = st.station) (f : Settings → Nat → Effect) :
    event t (State.write token (withPeer p f)) s = .next (finish (answered (begun s t) token .badSetting [])) :=
  enrolled_says h (if_pos bad)

theorem withPeer_says {t : Moment} {token : Token} {p : BitVec 8} (h : tillReady s st) (low : 1 ≤ p.toNat)
    (high : p.toNat ≤ 63) (other : p.toNat ≠ st.station) {f : Settings → Nat → Effect} {u : State} {status : Status}
    {values : List Value} (ran : f st p.toNat (begun s t) = (u, ⟨status, values⟩)) :
    event t (State.write token (withPeer p f)) s = .next (finish (answered u token status values)) := by
  have named : ¬(p.toNat = 0 ∨ Config.stationMax < p.toNat ∨ p.toNat = st.station) := by
    rintro (zero | above | own)
    · exact absurd zero (Nat.ne_of_gt low)
    · exact absurd above (Nat.not_lt.2 high)
    · exact other own
  exact enrolled_says h ((if_neg named).trans ran)

/-! ### CLEAR_PEER (R129) -/

theorem State.clearPeer_trusted {p : Nat} (trusted : (s.peer p).standing = .good ∨ (s.peer p).standing = .watch) :
    s.clearPeer p = (s, ⟨.ok, [.num1 (s.peer p).standing.code]⟩) := by
  unfold State.clearPeer
  rcases trusted with standing | standing <;> rw [standing]

theorem State.clearPeer_barred {p : Nat} (standing : (s.peer p).standing = .barred) :
    s.clearPeer p = ((s.modPeer p fun e => { e with standing := .recheck, protocolCount := 0 }).askCheck p,
      ⟨.ok, [.num1 3]⟩) := by
  unfold State.clearPeer
  rw [standing]
  rfl

theorem State.clearPeer_recheck {p : Nat} (standing : (s.peer p).standing = .recheck) :
    s.clearPeer p = ((s.modPeer p fun e => { e with protocolCount := 0 }).askCheck p, ⟨.ok, [.num1 3]⟩) := by
  unfold State.clearPeer
  rw [standing]
  rfl

/-- Settles O53: the lists field by field, then each command by its tests and its block. -/
theorem peersAndMonitorAtTheTill : Obligations.PeersAndMonitorAtTheTill := by
  refine ⟨readSigned_iff, fun now e held => ?_, fun s => ?_, fun s t token => ⟨fun hp hi => write_says hp hi rfl,
    fun st h => ⟨fun p bad => ⟨withPeer_refuses h bad _, withPeer_refuses h bad _, fun _ _ => withPeer_refuses h bad _⟩,
      fun p low high other => ?_, fun x => ?_⟩⟩⟩
  · simp only [peerValues, List.append_assoc, List.cons_append, List.nil_append]
    rcases e.lastState with _ | _ | _ <;> rcases e.lastMismatch with _ | ⟨r, l⟩ <;> cases e.sealF <;>
      cases e.pendingTally <;> rfl
  · intro source rate cycles slot oldest settings
    have sources : sourceValues s = source 0 ++ source 1 ++ source 2 ++ source 3 ++ source 4 ++ source 5 ++ source 6 ++
        source 7 ++ source 8 ++ source 9 ++ source 10 ++ source 11 ++ source 12 := rfl
    have last : s.su.oldestValues = oldest := by
      cases head : s.su.slots.head? with
      | none => simp only [StatementUnit.oldestValues_none head, oldest, head]
      | some x => simp only [StatementUnit.oldestValues_some head, oldest, head]; rfl
    rw [statusValues, s.own_eq, sources, last, collectionValues]
    cases enrolment : s.tp.settings with
    | none =>
      simp only [settings, cycles, enrolment, cycleValues_unenrolled, List.append_assoc, List.cons_append, List.nil_append]
      rfl
    | some st =>
      simp only [settings, cycles, enrolment, cycleValues_eq, List.append_assoc, List.cons_append, List.nil_append]
      rfl
  · intro n e
    refine ⟨?_, ?_, ?_, ?_, ?_, ?_⟩
    · exact withPeer_says h low high other rfl
    · exact fun trusted => withPeer_says h low high other (State.clearPeer_trusted (s := begun s t) trusted)
    · exact fun standing => withPeer_says h low high other (State.clearPeer_barred (s := begun s t) standing)
    · exact fun standing => withPeer_says h low high other (State.clearPeer_recheck (s := begun s t) standing)
    · intro dR dL r l readR readL
      refine withPeer_says h low high other ?_
      simp only [readR, readL]
      rfl
    · intro dR dL unread
      refine withPeer_says h low high other ?_
      rcases unread with unread | unread
      · simp only [unread]
        rfl
      · cases readSigned dR <;> simp only [unread] <;> rfl
  · exact enrolled_says h rfl

end Sys2Proof.Machine
end


section
/-! ## The admission of an exchange, and its tag (R102, R104) -/

namespace Sys2Proof.Machine

variable {s : State} {home : Nat} {p : ExParams}

/-! ### What the checks ask of the kind (R104) -/

theorem ExParams.isNew_iff (p : ExParams) : p.isNew = true ↔ p = .probe ∨ ∃ a l, p = .hold a l := by
  cases p <;> simp [ExParams.isNew]

theorem StationState.admits_iff (x : StationState) (isNew : Bool) :
    x.admits isNew = true ↔ x = .active ∨ (x = .draining ∧ ¬isNew = true) := by
  simp [StationState.admits]

theorem ExParams.holdId?_eq_some (p : ExParams) (i : Nat) :
    p.holdId? = some i ↔ p = .void i ∨ ∃ a, p = .capture i a := by
  cases p <;> simp [ExParams.holdId?]

theorem ExParams.trail?_eq_some (p : ExParams) (k : Nat) : p.trail? = some k ↔ ∃ a, p = .refund k a := by
  cases p <;> simp [ExParams.trail?]

/-- Two optional numbers are the same number. -/
theorem sameNumber_iff (a b : Option Nat) : (a.isSome && b == a) = true ↔ ∃ i, a = some i ∧ b = some i := by
  cases a <;> simp

/-- What check 6 finds: an exchange with the home that names the same hold or the same trail entry. -/
theorem State.claimed_iff (s : State) (home : Nat) (p : ExParams) :
    s.claimed home p = true ↔ ∃ x ∈ s.xt.exchanges, x.home = home ∧
      ((∃ i, p.holdId? = some i ∧ x.params.holdId? = some i) ∨ ∃ k, p.trail? = some k ∧ x.params.trail? = some k) := by
  simp only [State.claimed, List.any_eq_true, Bool.and_eq_true, Bool.or_eq_true, beq_iff_eq, ← sameNumber_iff]

/-- A HOLD or PROBE claims nothing. -/
theorem State.claimed_of_isNew (new : p.isNew = true) : s.claimed home p = false := by
  rw [← Bool.not_eq_true, State.claimed_iff]
  rcases p.isNew_iff.1 new with rfl | ⟨a, l, rfl⟩ <;> simp [ExParams.holdId?, ExParams.trail?]

/-! ### The checks in their order (R104) -/

theorem State.admissionStatus_notActive (closed : ¬s.lc.station.admits p.isNew = true) :
    s.admissionStatus home p = some .notActive := if_pos (by simp [closed])

section Admitted

variable (admitted : s.lc.station.admits p.isNew = true)

include admitted

theorem State.admissionStatus_unknown (unknown : (s.peer home).presence = .unknown) :
    s.admissionStatus home p = some .homeUnknown := by
  rw [State.admissionStatus, if_neg (by simp [admitted]), if_pos unknown]

theorem State.admissionStatus_absent (absent : (s.peer home).presence = .absent) :
    s.admissionStatus home p = some .homeAbsent := by
  rw [State.admissionStatus, if_neg (by simp [admitted]), if_neg (by simp [absent]), if_pos absent]

variable (present : (s.peer home).presence = .present)

include present

theorem State.admissionStatus_barred (barred : (s.peer home).standing = .barred ∨ (s.peer home).standing = .recheck) :
    s.admissionStatus home p = some (.reason .peerBarred) := by
  rw [State.admissionStatus, if_neg (by simp [admitted]), if_neg (by simp [present]), if_neg (by simp [present]),
    if_pos barred]

/-- Checks 5 to 7, the first four having passed. -/
theorem State.admissionStatus_trusted (trusted : (s.peer home).standing = .good ∨ (s.peer home).standing = .watch) :
    s.admissionStatus home p =
      if p.isNew && stopped s then some (.reason .stationStopped)
      else if !p.isNew && s.claimed home p then some .busy
      else if 32 ≤ s.xt.exchanges.length then some .exchangesFull
      else none := by
  rw [State.admissionStatus, if_neg (by simp [admitted]), if_neg (by simp [present]), if_neg (by simp [present]),
    if_neg (not_barred trusted)]
  rfl

end Admitted

/-! ### The tag (R102) -/

theorem ExchangeTable.mem_takenTags (x : ExchangeTable) (n : Nat) :
    n ∈ x.takenTags ↔ (∃ e ∈ x.exchanges, e.tag = n) ∨ ∃ e ∈ x.ended, e.tag = n := by
  simp only [ExchangeTable.takenTags, List.mem_append, List.mem_map]

/-- Exchanges and ended-list entries together are fewer than the tags. -/
theorem ExchangeTable.takenTags_length {x : ExchangeTable} (table : x.exchanges.length ≤ 32) (ended : x.ended.length ≤ 64) :
    x.takenTags.length < Config.idMax := by
  rw [ExchangeTable.takenTags, List.length_append, List.length_map, List.length_map, Config.idMax]
  omega

/-- Settles O27: the checks in their order, the record an admission makes, the search for its tag. -/
theorem admissionAndTags : Obligations.AdmissionAndTags := by
  refine ⟨fun s home p => ?_, fun s p home n token => rfl, fun x => ?_⟩
  · intro e first isNew names fits claimed
    have new : p.isNew = true ↔ isNew := p.isNew_iff
    have admits : s.lc.station.admits p.isNew = true ↔ fits :=
      (StationState.admits_iff _ _).trans (or_congr_right (and_congr_right fun _ => not_congr new))
    have claims : s.claimed home p = true ↔ claimed := by
      simp only [State.claimed_iff, ExParams.holdId?_eq_some, ExParams.trail?_eq_some, claimed, names,
        exists_and_left, exists_and_right]
    refine ⟨fun closed => State.admissionStatus_notActive (admits.not.2 closed), fun admitted => ?_⟩
    replace admitted := admits.2 admitted
    refine ⟨State.admissionStatus_unknown admitted, State.admissionStatus_absent admitted, fun present =>
      ⟨State.admissionStatus_barred admitted present, fun trusted => ?_⟩⟩
    have checks := State.admissionStatus_trusted admitted present trusted
    refine ⟨fun isNew halted => checks.trans (if_pos (by simp [new.2 isNew, halted])), fun old busy => ?_,
      fun running free => ?_⟩
    · replace old : p.isNew = false := Bool.eq_false_iff.2 (new.not.2 old)
      exact checks.trans ((if_neg (by simp [old])).trans (if_pos (by simp [old, claims.2 busy])))
    · have passes5 : ¬(p.isNew && stopped s) = true := by
        rw [Bool.and_eq_true, new]
        rintro ⟨isNew, halted⟩
        rcases running with old | running
        · exact old isNew
        · exact Bool.false_ne_true (running.symm.trans halted)
      have passes6 : ¬(!p.isNew && s.claimed home p) = true := by
        rw [Bool.and_eq_true, claims]
        exact fun busy => free busy.2
      have room := checks.trans ((if_neg passes5).trans (if_neg passes6))
      exact ⟨fun full => room.trans (if_pos full), fun free => room.trans (if_neg free.not_ge)⟩
  · intro taken
    have isTaken (n : Nat) : n ∈ x.takenTags ↔ taken n := x.mem_takenTags n
    refine ⟨fun free => firstFree_self ((isTaken _).not.2 free), fun table ended low high => ?_⟩
    intro along
    obtain ⟨low', high'⟩ := firstFree_mem (taken := x.takenTags) (x.takenTags.length + 1) low high
    obtain ⟨j, found, passed⟩ := firstFree_along low high x.takenTags (x.takenTags.length + 1)
    exact ⟨(isTaken _).not.1 (firstFree_not_mem low high (ExchangeTable.takenTags_length table ended)), low', high', j,
      found, fun i below => (isTaken _).1 (passed i below)⟩

end Sys2Proof.Machine
end


section
/-! ## Till commands on foreign cards (R103, R104) -/

namespace Sys2Proof.Machine

variable {s : State} {st : Settings} {home n : Nat} {p : ExParams} {t : Moment} {token : Token}

theorem State.openExchange_unfit {r : Reason} (unfit : p.unfit = some r) :
    s.openExchange p home n token = (s, .refuse r) := by
  rw [State.openExchange, unfit]

theorem State.openExchange_refused {status : Status} (fit : p.unfit = none)
    (refused : s.admissionStatus home p = some status) : s.openExchange p home n token = (s, .plain status) := by
  rw [State.openExchange, fit]
  simp only [refused]

theorem State.openExchange_admitted (fit : p.unfit = none) (admitted : s.admissionStatus home p = none) :
    s.openExchange p home n token =
      ((s.addExchange p home n (some token)).fillRequests, ⟨.waiting, [.num2 s.xt.newTag]⟩) := by
  rw [State.openExchange, fit]
  simp only [admitted]

/-- The beginning of a command changes nothing that an admission asks of. -/
theorem begun_admissionStatus (s : State) (t : Moment) (home : Nat) (p : ExParams) :
    (begun s t).admissionStatus home p = s.admissionStatus home p := rfl

section Foreign

variable {run : Effect} (ready : tillReady s st)
  (reaches : run (begun s t) = (begun s t).openExchange p home n token)

include ready reaches

/-- A command whose parameters can form no request. -/
theorem foreign_unfit {r : Reason} (unfit : p.unfit = some r) :
    event t (State.write token run) s = .next (finish (answered (begun s t) token (.reason r) [])) :=
  write_says ready.1 ready.2.2 (reaches.trans (State.openExchange_unfit unfit))

/-- A command whose parameters form a request is refused by the admission checks or becomes an exchange. -/
theorem foreign_fit (fit : p.unfit = none) :
    (s.admissionStatus home p = none →
      event t (State.write token run) s = .next (finish (answered
        ((begun s t).addExchange p home n (some token)).fillRequests token .waiting [.num2 s.xt.newTag]))) ∧
    ∀ status, s.admissionStatus home p = some status →
      event t (State.write token run) s = .next (finish (answered (begun s t) token status [])) := by
  rw [← begun_admissionStatus s t]
  exact ⟨fun admitted => write_says ready.1 ready.2.2 (reaches.trans (State.openExchange_admitted fit admitted)),
    fun status refused => write_says ready.1 ready.2.2 (reaches.trans (State.openExchange_refused fit refused))⟩

end Foreign

/-! ### Each command reaches the Exchange Table (R103) -/

section Reaches

variable {ref : RefField} (ready : tillReady s st) (names : readRef ref = some ⟨home, n⟩) (foreign : home ≠ st.station)

include ready names foreign

theorem cmdEnquire_foreign : cmdEnquire ref token (begun s t) = (begun s t).openExchange .probe home n token :=
  (named_begun ready t names _).trans (if_neg foreign)

theorem cmdAuthorize_foreign {asked least : AmountField} {a l : Nat} (readsAsked : readCardAmount asked = some a)
    (readsLeast : readCardAmount least = some l) (forms : l ≤ a) :
    cmdAuthorize ref asked least token (begun s t) =
      (begun s t).openExchange (authorizeParams a (leastAsRead a l)) home n token :=
  (named_begun ready t names _).trans ((withAmount_good readsAsked _ _).trans ((withAmount_good readsLeast _ _).trans
    ((if_neg (by simp [formsRequest, forms])).trans (if_neg foreign))))

theorem cmdCapture_foreign {amount : AmountField} {x : Nat} (reads : readCardAmount amount = some x) (holdId : Num2Field) :
    cmdCapture ref holdId amount token (begun s t) =
      (begun s t).openExchange (.capture holdId.toNat x) home n token :=
  (named_begun ready t names _).trans ((withAmount_good reads _ _).trans (if_neg foreign))

theorem cmdVoid_foreign (holdId : Num2Field) :
    cmdVoid ref holdId token (begun s t) = (begun s t).openExchange (.void holdId.toNat) home n token :=
  (named_begun ready t names _).trans (if_neg foreign)

theorem cmdRefund_foreign {trail : Digits8Field} {amount : AmountField} {k f : Nat}
    (readsTrail : bcdNat? 8 trail.toNat = some k) (reads : readCardAmount amount = some f) :
    cmdRefund ref trail amount token (begun s t) = (begun s t).openExchange (.refund k f) home n token :=
  (withTrail_good readsTrail _ _).trans ((named_begun ready t names _).trans ((withAmount_good reads _ _).trans
    (if_neg foreign)))

end Reaches

/-! ### Parameters that form no request (R103) -/

theorem authorizeParams_unfit (asked least : Nat) : (authorizeParams asked least).unfit = none := by
  unfold authorizeParams
  split <;> rfl

theorem capture_unfit_amount (i : Nat) : (ExParams.capture i 0).unfit = some .amount := rfl

theorem capture_unfit_hold {x : Nat} (pos : 0 < x) : (ExParams.capture 0 x).unfit = some .unknownHold := if_neg pos.ne'

theorem capture_fit {i x : Nat} (pos : 0 < x) (hold : i ≠ 0) : (ExParams.capture i x).unfit = none :=
  (if_neg pos.ne').trans (if_neg hold)

theorem void_fit {i : Nat} (hold : i ≠ 0) : (ExParams.void i).unfit = none := if_neg hold

theorem refund_unfit_trail {f : Nat} (pos : 0 < f) : (ExParams.refund 0 f).unfit = some .unknownCapture := if_neg pos.ne'

theorem refund_fit {k f : Nat} (pos : 0 < f) (trail : 0 < k) : (ExParams.refund k f).unfit = none :=
  (if_neg pos.ne').trans (if_neg trail.ne')

/-- Settles O26: each command reaches the Exchange Table, where its parameters decide. -/
theorem foreignCommandsBecomeExchanges : Obligations.ForeignCommandsBecomeExchanges := by
  intro s st t token ref home n ready names foreign admitted refused
  have aHold {i : Num2Field} (given : i ≠ 0) : i.toNat ≠ 0 := fun absent => given (BitVec.eq_of_toNat_eq absent)
  refine ⟨foreign_fit ready (cmdEnquire_foreign ready names foreign) rfl,
    fun asked least a l readsAsked readsLeast forms => ?_, fun holdId amount x reads => ?_, fun holdId => ?_,
    fun trail amount k f readsTrail reads => ?_⟩
  · exact foreign_fit ready (cmdAuthorize_foreign ready names foreign readsAsked readsLeast forms)
      (authorizeParams_unfit _ _)
  · have reaches := cmdCapture_foreign (t := t) (token := token) ready names foreign reads holdId
    refine ⟨?_, ?_, fun pos hold => foreign_fit ready reaches (capture_fit pos (aHold hold))⟩
    · rintro rfl
      exact foreign_unfit ready reaches (capture_unfit_amount _)
    · rintro pos rfl
      exact foreign_unfit ready reaches (capture_unfit_hold pos)
  · have reaches := cmdVoid_foreign (t := t) (token := token) ready names foreign holdId
    refine ⟨?_, fun hold => foreign_fit ready reaches (void_fit (aHold hold))⟩
    rintro rfl
    exact foreign_unfit ready reaches rfl
  · have reaches := cmdRefund_foreign (t := t) (token := token) ready names foreign readsTrail reads
    refine ⟨?_, ?_, fun pos trail => foreign_fit ready reaches (refund_fit pos trail)⟩
    · rintro rfl
      exact foreign_unfit ready reaches rfl
    · rintro pos rfl
      exact foreign_unfit ready reaches (refund_unfit_trail pos)

end Sys2Proof.Machine
end


section
/-! ## Reply deadlines and uncertain outcomes (R108, R117) -/

namespace Sys2Proof.Machine

variable {s : State} {e : Exchange} {tag : Nat} {d : Moment}

/-! ### REPLY_TIMEOUT (R108) -/

section Found

variable (found : s.findExchange tag = some e)

include found

section Due

variable (waiting : e.state = .waiting) (deadline : e.replyDeadline = some d) (due : d ≤ s.now)

include waiting deadline due

theorem State.replyTimeout_again (few : e.sends < 4) :
    s.replyTimeout tag =
      (s.modExchange tag fun x => { x with state := .queued, replyDeadline := none }).fillRequests := by
  simp only [State.replyTimeout, found, waiting, deadline, if_pos due]
  exact if_pos few

theorem State.replyTimeout_last (last : 4 ≤ e.sends) : s.replyTimeout tag = (s.setAside e).fillResults := by
  simp only [State.replyTimeout, found, waiting, deadline, if_pos due]
  exact if_neg last.not_gt

end Due

theorem State.replyTimeout_early (early : e.state ≠ .waiting ∨ ∀ d, e.replyDeadline = some d → s.now < d) :
    s.replyTimeout tag = s := by
  rw [State.replyTimeout, found]
  dsimp only
  split
  next waiting deadline =>
    rcases early with other | early
    · exact absurd waiting other
    · exact if_neg (early _ deadline).not_ge
  next => rfl

end Found

/-! ### An exchange set aside (R108, R110) -/

/-- A CAPTURE or REFUND becomes UNSURE, its result waiting. -/
theorem State.setAside_unsure {k i : Nat} (settling : e.params = .capture k i ∨ e.params = .refund k i) :
    s.setAside e =
      { s.modExchange e.tag fun x =>
          { x with
            state := .unsure, replyDeadline := none, resendWanted := false,
            result := some ⟨e.resultRec false (.unsure e.sends), s.seq⟩ } with
        seq := s.seq + 1 } := by
  unfold State.setAside
  rcases settling with kind | kind <;> rw [kind]

/-- A HOLD, PROBE or VOID ends NO_ANSWER. -/
theorem State.setAside_ends (kind : ∀ k i, e.params ≠ .capture k i ∧ e.params ≠ .refund k i) :
    s.setAside e = (s.finishExchange e false .noAnswer).joinEnded (e.endedEntry .noAnswer none none) := by
  unfold State.setAside
  split
  next k i capture => exact absurd capture (kind k i).1
  next k i refund => exact absurd refund (kind k i).2
  next => rfl

/-- What does not refund names no trail entry. -/
theorem ExParams.trail?_eq_none {p : ExParams} (kind : ∀ k i, p ≠ .refund k i) : p.trail? = none :=
  Option.eq_none_iff_forall_ne_some.2 fun k names => by
    obtain ⟨a, refund⟩ := (p.trail?_eq_some k).1 names
    exact kind k a refund

/-- The end of an exchange leaves the entry to be made. -/
theorem State.finishExchange_keeps_ended (resolved : Bool) (o : ExOutcome) :
    (s.finishExchange e resolved o).xt.ended = s.xt.ended := by
  unfold State.finishExchange
  split <;> rfl

theorem State.setAside_ended (kind : ∀ k i, e.params ≠ .capture k i ∧ e.params ≠ .refund k i) :
    (s.setAside e).xt.ended = keepLast 64 (s.xt.ended ++
      [{ home := e.home, tag := e.tag, kind := e.params.kind, internal := e.internal, serial := e.serial,
         holdId := e.params.holdId?, trailNo := none, ending := .noAnswer }]) := by
  have noTrail := ExParams.trail?_eq_none fun k i => (kind k i).2
  have entry := e.endedEntry_eq .noAnswer none none
  simp only [Option.none_or, noTrail] at entry
  rw [State.setAside_ends kind, entry, ← s.finishExchange_keeps_ended (e := e) false .noAnswer]
  rfl

theorem State.finishExchange_internal {resolved : Bool} {o : ExOutcome} (internal : e.internal = true) :
    (s.finishExchange e resolved o).xt.exchanges = s.xt.exchanges.filter fun x => x.tag != e.tag := by
  rw [State.finishExchange, if_pos internal]

theorem State.finishExchange_reported {resolved : Bool} {o : ExOutcome} (internal : e.internal = false) :
    (s.finishExchange e resolved o).xt.exchanges = s.xt.exchanges.map fun x => if x.tag == e.tag then
      { x with
        state := .done, replyDeadline := none, resendWanted := false, result := some ⟨e.resultRec resolved o, s.seq⟩ }
      else x := by
  rw [State.finishExchange, internal, if_neg Bool.false_ne_true]
  rfl

theorem replyTimeout_says {t : Moment} {field : Num2Field} {v : State} (power : s.power = true)
    (ran : (s.atMoment t).replyTimeout field.toNat = v) :
    exec (.replyTimeout t field) s = .next (finish v.drainTest) := by
  rw [← ran]
  exact event_powered power t fun s => (s.replyTimeout field.toNat).drainTest

/-- Settles O28: the deadline by state, moment and sends, then what is set aside by its kind. -/
theorem repliesTimeOut : Obligations.RepliesTimeOut := by
  intro s t tag e power found u run
  have found : u.findExchange tag.toNat = some e := found
  refine ⟨fun d waiting deadline due few => replyTimeout_says power (State.replyTimeout_again found waiting deadline due few),
    fun d waiting deadline due last => replyTimeout_says power (State.replyTimeout_last found waiting deadline due last),
    fun early => replyTimeout_says power (State.replyTimeout_early found early),
    fun k i settling => State.setAside_unsure settling, fun kind => ?_⟩
  refine ⟨State.setAside_ended kind, ?_⟩
  rw [State.setAside_ends kind]
  exact ⟨State.finishExchange_internal, State.finishExchange_reported⟩

end Sys2Proof.Machine
end


section
/-! ## Answers to own requests (R111 to R115) -/

namespace Sys2Proof.Machine

variable {s : State} {st : Settings} {source tag i : Nat} {b : Body} {e : Exchange}

/-! ### Searches from the end -/

/-- What a search for the last record by a test answers, in the words of the test. -/
theorem find?_reverse_spec {α : Type} {p : α → Bool} {q : α → Prop} (test : ∀ x, p x = true ↔ q x) (l : List α) :
    ((∀ x ∈ l, ¬q x) → l.reverse.find? p = none) ∧
      ∀ before x after, l = before ++ x :: after → q x → (∀ y ∈ after, ¬q y) → l.reverse.find? p = some x := by
  obtain ⟨absent, first⟩ := find?_spec test l.reverse
  refine ⟨fun none => absent fun x hx => none x (List.mem_reverse.1 hx), fun before x after split here later =>
    first after.reverse x before.reverse ?_ (fun y hy => later y (List.mem_reverse.1 hy)) here⟩
  rw [split, List.reverse_append, List.reverse_cons, List.append_assoc, List.singleton_append]

/-! ### The exchange an answer matches (R111) -/

/-- What R111 asks of an exchange besides the kind. -/
theorem State.answerTest_iff (source tag : Nat) (b : Body) (e : Exchange) :
    (e.home == source && e.tag == tag &&
      ((e.state == .queued && decide (0 < e.sends)) || e.state == .waiting || e.state == .unsure) &&
        e.params.fits b) = true ↔
      e.home = source ∧ e.tag = tag ∧
        ((e.state = .queued ∧ 0 < e.sends) ∨ e.state = .waiting ∨ e.state = .unsure) ∧ e.params.fits b = true := by
  simp only [Bool.and_eq_true, Bool.or_eq_true, beq_iff_eq, decide_eq_true_iff, and_assoc, or_assoc]

/-! ### An answer that is heard (R88, R111) -/

/-- The bodies of the answers (R96). -/
def Body.isAnswer : Body → Bool
  | .grant .. | .taken .. | .freed .. | .credited .. | .refuse .. => true
  | _ => false

theorem State.handOver_answer {g : Header} (answer : b.isAnswer = true) :
    s.handOver st g b = s.serveAnswer g.source g.tag b := by
  cases b with
  | grant | taken | freed | credited | refuse => rfl
  | _ => cases answer

/-- An answer addressed to this station is served in the state that has heard it. -/
theorem answer_says {t : Moment} {h : RxHeader} {g : Header} {raw : RawBody} {v : State} (hl : lineReady s st)
    (hf : addressed st h g) (read : raw.read = some b) (answer : b.isAnswer = true)
    (kinds : raw.kind ≠ kindBeacon ∧ raw.kind ≠ kindTally ∧ raw.kind ≠ kindCheck)
    (served : (heardFrom s st t g).serveAnswer g.source g.tag b = v) :
    event t (fun s => s.hearKind h raw) s = .next (finish v.drainTest) := by
  obtain ⟨noBeacon, noTally, noCheck⟩ := kinds
  rw [hearKind_addressed hl hf t read noBeacon noTally noCheck, State.handOver_answer answer, served]

theorem State.serveAnswer_matched (matched : s.matchAnswer source tag b = some e) :
    s.serveAnswer source tag b = s.takeAnswer source e b := by
  rw [State.serveAnswer, matched]

section Unmatched

variable (unmatched : s.matchAnswer source tag b = none)

include unmatched

theorem State.serveAnswer_repeated (repeated : s.isRepeat source tag b = true) : s.serveAnswer source tag b = s := by
  rw [State.serveAnswer, unmatched]
  exact if_pos repeated

theorem State.serveAnswer_orphan (new : s.isRepeat source tag b = false) :
    s.serveAnswer source tag b = s.orphan source tag b := by
  rw [State.serveAnswer, unmatched]
  exact if_neg (by simp [new])

end Unmatched

/-- Settles O35: the search by its test, and each answer taken by the exchange it matches. -/
theorem matchingAnswersAreTaken : Obligations.MatchingAnswersAreTaken := by
  refine ⟨fun s source tag b => ?_, fun s st t h g e hl hf => ?_⟩
  · intro fits matching
    have fits_iff (p : ExParams) : p.fits b = true ↔ fits p := by
      cases p <;> cases b
      case hold.grant => exact bne_iff_ne
      case probe.grant => exact beq_iff_eq
      case capture.taken | void.freed | refund.credited => exact iff_of_true rfl trivial
      case hold.refuse | probe.refuse | capture.refuse | void.refuse | refund.refuse => exact beq_iff_eq
      all_goals exact iff_of_false Bool.false_ne_true id
    refine find?_spec (fun e => ?_) s.xt.exchanges
    rw [State.answerTest_iff, fits_iff]
  · intro u taken
    have takes {raw : RawBody} {b : Body} (read : raw.read = some b) (answer : b.isAnswer = true)
        (kinds : raw.kind ≠ kindBeacon ∧ raw.kind ≠ kindTally ∧ raw.kind ≠ kindCheck)
        (matched : u.matchAnswer g.source g.tag b = some e) :
        event t (fun s => s.hearKind h raw) s = .next (finish (u.takeAnswer g.source e b).drainTest) :=
      answer_says hl hf read answer kinds (State.serveAnswer_matched matched)
    exact ⟨fun _ _ _ _ _ _ _ _ _ _ _ _ read => takes read rfl ⟨nofun, nofun, nofun⟩,
      fun _ _ _ _ _ _ _ _ _ _ read => takes read rfl ⟨nofun, nofun, nofun⟩,
      fun _ _ _ _ _ _ read => takes read rfl ⟨nofun, nofun, nofun⟩,
      fun _ _ _ _ _ _ _ _ _ _ read => takes read rfl ⟨nofun, nofun, nofun⟩,
      fun _ _ _ _ _ read => takes read rfl ⟨nofun, nofun, nofun⟩⟩

/-! ### Repeats (R113) -/

theorem State.isRepeat_of_latest {x : EndedEntry} (latest : s.latestEnded source tag = some x) :
    s.isRepeat source tag b = x.repeats b := by
  rw [State.isRepeat, latest]

theorem State.isRepeat_of_none (none : s.latestEnded source tag = none) : s.isRepeat source tag b = false := by
  rw [State.isRepeat, none]

/-! ### Orphan answers (R114) -/

theorem State.voidStands_iff (s : State) (source i : Nat) : s.voidStands source i = true ↔
    (∃ e ∈ s.xt.exchanges, e.internal = true ∧ e.home = source ∧ e.params = .void i) ∨
      ∃ e ∈ s.xt.ended, e.internal = true ∧ e.home = source ∧ e.kind = .void ∧ e.holdId = some i := by
  simp only [State.voidStands, Bool.or_eq_true, List.any_eq_true, Bool.and_eq_true, beq_iff_eq, and_assoc]

theorem State.orphanGrant_idle (idle : i = 0 ∨ s.endedHold source tag = none ∨ s.voidStands source i = true ∨
    32 ≤ s.xt.exchanges.length) : s.orphanGrant source tag i = s := by
  unfold State.orphanGrant
  split
  next => rfl
  next given =>
    split
    next => rfl
    next x found =>
      refine if_pos ?_
      rw [Bool.or_eq_true, decide_eq_true_iff]
      exact (idle.resolve_left given).resolve_left (by simp [found])

theorem State.orphanGrant_voids {x : EndedEntry} (given : i ≠ 0) (found : s.endedHold source tag = some x)
    (new : s.voidStands source i = false) (room : s.xt.exchanges.length < 32) :
    s.orphanGrant source tag i = (s.addExchange (.void i) source x.serial none).fillRequests := by
  have free : ¬(s.voidStands source i || decide (Config.exchangesMax ≤ s.xt.exchanges.length)) = true := by
    rw [Bool.or_eq_true, decide_eq_true_iff, new]
    exact not_or_intro Bool.false_ne_true room.not_ge
  rw [State.orphanGrant, if_neg given, found]
  exact if_neg free

/-- Settles O36: the two searches of the ended list, then each answer that matches no exchange. -/
theorem repeatsAndOrphans : Obligations.RepeatsAndOrphans := by
  refine ⟨fun s source tag b => ?_, fun s st t h g hl hf => ?_⟩
  · intro named repeated
    have repeats_iff (e : EndedEntry) : e.repeats b = true ↔ repeated e := by
      cases b with
      | grant | taken | credited => exact (Bool.and_eq_true ..).to_iff.trans (and_congr beq_iff_eq beq_iff_eq)
      | freed | refuse => exact beq_iff_eq
      | _ => exact iff_of_false Bool.false_ne_true id
    have named_iff (e : EndedEntry) : (e.home == source && e.tag == tag) = true ↔ named e := by
      rw [Bool.and_eq_true, beq_iff_eq, beq_iff_eq]
    have hold_iff (e : EndedEntry) : (e.home == source && e.tag == tag && e.kind == .hold) = true ↔
        named e ∧ e.kind = .hold := by
      rw [Bool.and_eq_true, named_iff, beq_iff_eq]
    obtain ⟨noEntry, latest⟩ := find?_reverse_spec named_iff s.xt.ended
    obtain ⟨noHold, latestHold⟩ := find?_reverse_spec hold_iff s.xt.ended
    refine ⟨fun none => State.isRepeat_of_none (noEntry none), fun before e after split here later => ?_, noHold,
      fun before e after split here kind later => latestHold before e after split ⟨here, kind⟩ later,
      fun i => s.voidStands_iff source i⟩
    rw [State.isRepeat_of_latest (latest before e after split here later)]
    exact repeats_iff e
  · intro u unmatched
    have drops {raw : RawBody} {b : Body} (read : raw.read = some b) (answer : b.isAnswer = true)
        (kinds : raw.kind ≠ kindBeacon ∧ raw.kind ≠ kindTally ∧ raw.kind ≠ kindCheck)
        (noMatch : u.matchAnswer g.source g.tag b = none) :
        (u.isRepeat g.source g.tag b = true →
          event t (fun s => s.hearKind h raw) s = .next (finish u.drainTest)) ∧
        (u.isRepeat g.source g.tag b = false →
          event t (fun s => s.hearKind h raw) s = .next (finish (u.orphan g.source g.tag b).drainTest)) :=
      ⟨fun again => answer_says hl hf read answer kinds (State.serveAnswer_repeated noMatch again),
        fun new => answer_says hl hf read answer kinds (State.serveAnswer_orphan noMatch new)⟩
    exact ⟨fun _ _ _ _ _ _ _ _ _ _ _ _ read => drops read rfl ⟨nofun, nofun, nofun⟩,
      fun _ _ _ _ _ _ _ _ _ _ read => drops read rfl ⟨nofun, nofun, nofun⟩,
      fun _ _ _ _ _ _ read => drops read rfl ⟨nofun, nofun, nofun⟩,
      fun _ _ _ _ _ _ _ _ _ _ read => drops read rfl ⟨nofun, nofun, nofun⟩,
      fun _ _ _ _ _ read => drops read rfl ⟨nofun, nofun, nofun⟩,
      fun _ => State.orphanGrant_idle, fun _ _ => State.orphanGrant_voids⟩

end Sys2Proof.Machine
end


section
/-! ## Waiting results and the result queue (R116, R117, R182) -/

namespace Sys2Proof.Machine

variable {s u : State} {e : Exchange} {w v : Waiting}

/-! ### The result that became pending first (R182) -/

theorem earlierOf_waiting {a b : Exchange} {x y : Waiting} (ha : a.result = some x) (hb : b.result = some y) :
    earlierOf a (some b) = if x.place ≤ y.place then a else b := by
  simp only [earlierOf, ha, hb]

/-- The exchange whose result became pending before all others. -/
theorem oldestWaiting_first {l : List Exchange} (here : e ∈ l) (waits : e.result = some w)
    (first : ∀ x ∈ l, x ≠ e → ∀ v, x.result = some v → w.place < v.place) : oldestWaiting l = some e := by
  induction l with
  | nil => cases here
  | cons a l ih =>
    have rest := ih (first := fun x hx => first x (List.mem_cons_of_mem _ hx))
    by_cases same : a = e
    · subst same
      rw [oldestWaiting, waits, Option.isSome_some, if_pos rfl]
      congr 1
      cases others : oldestWaiting l with
      | none => rfl
      | some b =>
        obtain ⟨hb, waitsToo⟩ := oldestWaiting_mem others
        obtain ⟨y, pending⟩ := Option.isSome_iff_exists.1 waitsToo
        rw [earlierOf_waiting waits pending]
        by_cases again : b = a
        · rw [again, ite_self]
        · exact if_pos (first b (List.mem_cons_of_mem _ hb) again y pending).le
    · rw [oldestWaiting, rest ((List.mem_cons.1 here).resolve_left (Ne.symm same))]
      cases pending : a.result with
      | none => rfl
      | some x =>
        have later := first a List.mem_cons_self same x pending
        rw [Option.isSome_some, if_pos rfl, earlierOf_waiting pending waits, if_neg later.not_ge]

/-! ### One filling, by what waits (R117, R182) -/

theorem State.enterExchange_eq (s : State) (e : Exchange) (w : Waiting) :
    s.enterExchange e w =
      { s with
        tp := { s.tp with results := s.tp.results ++ [w.result] }
        xt := { s.xt with
          exchanges :=
            if e.state = .done then s.xt.exchanges.filter fun x => x.tag != e.tag
            else s.xt.exchanges.map fun x => if x.tag == e.tag then { x with result := none } else x } } := by
  simp only [State.enterExchange, State.resultDelivered, beq_iff_eq]
  rfl

section Room

variable (room : s.tp.results.length < 32)

include room

theorem State.fillResult_link (idle : oldestWaiting s.xt.exchanges = none) (held : s.lc.heldLink = some v) :
    s.fillResult = some (s.enterLink v) := by
  rw [State.fillResult, if_neg (show ¬Config.exchangesMax ≤ s.tp.results.length from room.not_ge), idle, held]

theorem State.fillResult_both (oldest : oldestWaiting s.xt.exchanges = some e) (waits : e.result = some w)
    (held : s.lc.heldLink = some v) :
    s.fillResult = some (if w.place < v.place then s.enterExchange e w else s.enterLink v) := by
  rw [State.fillResult, if_neg (show ¬Config.exchangesMax ≤ s.tp.results.length from room.not_ge), oldest, held]
  simp only [waits]

end Room

/-! ### Filling while there is room (R182) -/

theorem State.fillResult_length (filled : s.fillResult = some u) : u.tp.results.length = s.tp.results.length + 1 := by
  rcases (State.fillResult_cases filled).2 with ⟨e, x, -, -, rfl⟩ | ⟨w, -, rfl⟩
  · exact List.length_append
  · exact List.length_append

theorem State.fillResultTimes_idle (idle : s.fillResult = none) (n : Nat) : State.fillResultTimes n s = s := by
  cases n with
  | zero => rfl
  | succ n => rw [State.fillResultTimes, idle]

theorem State.fillResultTimes_filled (filled : s.fillResult = some u) (n : Nat) :
    State.fillResultTimes (n + 1) s = State.fillResultTimes n u := by
  rw [State.fillResultTimes, filled]

/-- After as many fillings as there are places left, one more changes nothing. -/
theorem State.fillResultTimes_exhausts (n : Nat) : ∀ s : State, 32 ≤ s.tp.results.length + n →
    State.fillResultTimes (n + 1) s = State.fillResultTimes n s := by
  induction n with
  | zero => exact fun s full => State.fillResultTimes_idle (State.fillResult_full full) 1
  | succ n ih =>
    intro s enough
    cases filled : s.fillResult with
    | none => simp only [State.fillResultTimes_idle filled]
    | some u =>
      rw [State.fillResultTimes_filled filled, State.fillResultTimes_filled filled]
      exact ih u (by rw [State.fillResult_length filled]; omega)

theorem State.fillResults_filled (filled : s.fillResult = some u) : s.fillResults = u.fillResults := by
  have enough := State.fillResultTimes_exhausts 31 u (by rw [State.fillResult_length filled]; omega)
  exact (State.fillResultTimes_filled filled 31).trans enough.symm

/-! ### READ_RESULT (R182) -/

theorem State.readResult_empty (empty : s.tp.results = []) : s.readResult = (s, ⟨.nothing, []⟩) := by
  rw [State.readResult, empty]
  rfl

theorem State.readResult_oldest {r : ResultRec} {rest : List ResultRec} (oldest : s.tp.results = r :: rest) :
    s.readResult = ({ s with tp := { s.tp with results := rest } : State }.fillResults, ⟨.ok, r.values⟩) := by
  rw [State.readResult, oldest]

/-- Settles O14: the values field by field, the read, and what one filling enters by what waits. -/
theorem resultsLeaveOldestFirst : Obligations.ResultsLeaveOldestFirst := by
  refine ⟨fun tag token p home n resolved o => ?_, fun o x k => ?_, fun s st t token => ?_⟩
  · intro kind outcome own values
    have kinds : p.kind.code = kind := by cases p <;> rfl
    have outcomes : o.code = outcome := by cases o <;> rfl
    have parameters : p.values home n = own := by cases p <;> rfl
    have reported : o.values p home n = values := by
      cases o with
      | ok x => cases x <;> rfl
      | refused => rfl
      | noAnswer => exact parameters
      | unsure sends => exact congrArg (· ++ [Value.plainCount sends]) parameters
    rw [ResultRec.values, kinds, outcomes, reported]
    cases resolved <;> rfl
  · rw [ResultRec.values]
    cases o <;> cases x <;> rfl
  · intro entered delivered first
    have enters {e w} (earliest : first e w) : oldestWaiting s.xt.exchanges = some e ∧ e.result = some w := by
      obtain ⟨here, waits, others⟩ := earliest
      exact ⟨oldestWaiting_first here waits fun x hx other => (others x hx other).2, waits⟩
    have reads {v status values} (ready : tillReady s st) (ran : (begun s t).readResult = (v, ⟨status, values⟩)) :
        exec (.readResult t token) s = .next (finish (answered v token status values)) :=
      enrolled_says (f := fun _ => State.readResult) ready ran
    refine ⟨fun ready empty => reads ready (State.readResult_empty (s := begun s t) empty),
      fun r rest ready oldest => reads ready (State.readResult_oldest (s := begun s t) oldest),
      fun power => event_powered power t _, State.fillResults_idle, fun u => State.fillResults_filled,
      State.fillResult_full, fun idle => State.fillResult_idle (oldestWaiting_none idle), fun room =>
      ⟨fun v idle => State.fillResult_link room (oldestWaiting_none idle), fun e w earliest unheld => ?_,
        fun e w v earliest held => ?_⟩⟩
    · obtain ⟨oldest, waits⟩ := enters earliest
      rw [State.fillResult_exchange room oldest waits unheld, State.enterExchange_eq]
    · obtain ⟨oldest, waits⟩ := enters earliest
      have both := State.fillResult_both room oldest waits held
      refine ⟨fun before => ?_, fun after => ?_⟩
      · rw [both, if_pos before, State.enterExchange_eq]
      · rw [both, if_neg after.not_gt]
        rfl

end Sys2Proof.Machine
end


section
/-! ## A TALLY and its comparison (R127, R151, R153) -/

namespace Sys2Proof.Machine

variable {s : State} {e : PeerEntry} {cc : Cycles} {y : Tally}

/-! ### The sort (R151) -/

/-- A tally of the cycle that is being sealed, or of a later one, waits for that seal. -/
theorem tallySort_later_of_sealing {sLast c : Nat} {x : SealingSet} (h : sLast ≤ c) (sealing : cc.sealing = some x)
    (hx : x.cycle ≤ c) : tallySort cc sLast c = .later := by
  rw [tallySort, if_neg (Nat.not_lt.2 h), if_neg]
  simp [sealing, hx]

/-! ### The comparison (R153) -/

theorem Total.agrees_iff (a b : Total) : a.agrees b = true ↔ a = b := by
  rw [Total.agrees, Bool.and_eq_true, beq_iff_eq, beq_iff_eq, compareAmounts_equal, Total.mk.injEq]

/-- The peer's R is this station's L, and its L this station's R. -/
theorem PeerEntry.tallyMatches_iff (e : PeerEntry) (y : Tally) :
    e.tallyMatches y = true ↔ y.r = e.lifeLs ∧ y.l = e.lifeRs := by
  rw [PeerEntry.tallyMatches, Bool.and_eq_true, Total.agrees_iff, Total.agrees_iff]

theorem PeerEntry.tallyMatches_eq_false (differs : y.r ≠ e.lifeLs ∨ y.l ≠ e.lifeRs) : e.tallyMatches y = false :=
  Bool.eq_false_iff.2 fun agree =>
    have ⟨r, l⟩ := (e.tallyMatches_iff y).1 agree
    differs.elim (· r) (· l)

theorem PeerEntry.compareTally_match (agree : e.tallyMatches y = true) :
    e.compareTally y = { e with standing := e.standing.after true, lastMismatch := none } := by
  rw [PeerEntry.compareTally, agree]
  rfl

theorem PeerEntry.compareTally_mismatch (differ : e.tallyMatches y = false) :
    e.compareTally y =
      { e with
        standing := e.standing.after false
        lastMismatch := some (e.lifeRs.diff y.l, e.lifeLs.diff y.r) } := by
  rw [PeerEntry.compareTally, differ]
  rfl

theorem PeerEntry.compareTallySat_match (agree : e.tallyMatches y = true) : e.compareTallySat y = false := by
  rw [PeerEntry.compareTallySat, agree]
  rfl

theorem PeerEntry.compareTallySat_mismatch (differ : e.tallyMatches y = false) :
    e.compareTallySat y = (overflows (e.lifeRs.val - y.l.val) || overflows (e.lifeLs.val - y.r.val)) := by
  rw [PeerEntry.compareTallySat, differ]
  rfl

/-! ### A tally taken, by its sort (R151) -/

theorem PeerEntry.takeTally_stale (sort : tallySort cc e.sLast y.cycle = .stale) :
    e.takeTally cc y = e ∧ e.takeTallySat cc y = false := by
  rw [PeerEntry.takeTally, PeerEntry.takeTallySat, sort]
  exact ⟨rfl, rfl⟩

theorem PeerEntry.takeTally_comparable (sort : tallySort cc e.sLast y.cycle = .comparable) :
    e.takeTally cc y = { e.compareTally y with pendingTally := none } ∧ e.takeTallySat cc y = e.compareTallySat y := by
  rw [PeerEntry.takeTally, PeerEntry.takeTallySat, sort]
  exact ⟨rfl, rfl⟩

theorem PeerEntry.takeTally_later (sort : tallySort cc e.sLast y.cycle = .later) :
    e.takeTally cc y = { e with pendingTally := some y } ∧ e.takeTallySat cc y = false := by
  rw [PeerEntry.takeTally, PeerEntry.takeTallySat, sort]
  exact ⟨rfl, rfl⟩

/-! ### The frame -/

theorem exec_tallyReceived {st : Settings} {h : RxHeader} {g : Header} {cycle : CycleField} {a b : AmountField}
    {marks : Byte} {k : Nat} {r l : Total} (hl : lineReady s st) (hf : fromPeer st h g) (t : Moment)
    (dest : g.dest = st.station) (own : st.station ≠ 0) (tag : g.tag = 0)
    (read : (RawBody.tally cycle a b marks).read = some (.tally k r l)) :
    exec (.tallyReceived t h cycle a b marks) s =
      .next (finish ((heardFrom s st t g).onTally g ⟨k, r, l⟩).drainTest) := by
  refine hearKind_next hl hf t read (.inr dest) ?_ ?_
  · simp [destinationFits, RawBody.kind, kindTally, kindBeacon, dest, own]
  · simp [tagFits, RawBody.kind, tag]

/-- Settles O38: the frame in the state that has heard its header, the tally by its sort and its comparison, and the
moves of the standing. -/
theorem talliesAreSortedAndCompared : Obligations.TalliesAreSortedAndCompared := by
  refine ⟨fun s st t h g cycle a b marks k r l hl hf dest own tag read => ?_, fun cc e y => ?_, ?_⟩
  · exact exec_tallyReceived hl hf t dest own tag read
  · refine ⟨fun old => PeerEntry.takeTally_stale (tallySort_stale old), fun since before unsealed => ?_,
      fun since waits => PeerEntry.takeTally_later ?_⟩
    · obtain ⟨taken, reports⟩ := PeerEntry.takeTally_comparable (tallySort_comparable since before unsealed)
      rw [taken, reports]
      refine ⟨fun r l => ?_, fun differs => ?_⟩
      · have agree := (e.tallyMatches_iff y).2 ⟨r, l⟩
        exact ⟨by rw [PeerEntry.compareTally_match agree], PeerEntry.compareTallySat_match agree⟩
      · have differ := PeerEntry.tallyMatches_eq_false differs
        exact ⟨by rw [PeerEntry.compareTally_mismatch differ], PeerEntry.compareTallySat_mismatch differ⟩
    · obtain future | ⟨x, sealing, reached⟩ := waits
      · exact tallySort_later since future
      · exact tallySort_later_of_sealing since sealing reached
  · exact ⟨rfl, rfl, rfl, rfl, rfl, rfl, rfl, rfl⟩

end Sys2Proof.Machine
end


section
/-! ## Seals (R140, R143, R146, R147, R162, R163) -/

namespace Sys2Proof.Machine

variable {s : State} {st : Settings} {su : StatementUnit}

/-! ### The slot granted (R162, R163) -/

theorem StatementUnit.holds_iff (no : SlotNo) : su.holds no = true ↔ ¬∀ x ∈ su.slots, x.no ≠ no := by
  simp [StatementUnit.holds]

theorem StatementUnit.grantSlot_one (free : ∀ x ∈ su.slots, x.no ≠ .one) : su.grantSlot = some .one := by
  have empty : su.holds .one = false := Bool.eq_false_iff.2 fun held => (su.holds_iff .one).1 held free
  rw [StatementUnit.grantSlot, empty]
  rfl

theorem StatementUnit.grantSlot_two (held : ¬∀ x ∈ su.slots, x.no ≠ .one) (free : ∀ x ∈ su.slots, x.no ≠ .two) :
    su.grantSlot = some .two := by
  have empty : su.holds .two = false := Bool.eq_false_iff.2 fun held => (su.holds_iff .two).1 held free
  rw [StatementUnit.grantSlot, (su.holds_iff .one).2 held, empty]
  rfl

section Full

variable (one : ¬∀ x ∈ su.slots, x.no ≠ .one) (two : ¬∀ x ∈ su.slots, x.no ≠ .two)

include one two

/-- With no slot EMPTY the oldest REPORT is looked for. -/
theorem StatementUnit.grantSlot_full :
    su.grantSlot = (su.slots.find? fun x => x.statement.kind == .report).map Slot.no := by
  rw [StatementUnit.grantSlot, (su.holds_iff .one).2 one, (su.holds_iff .two).2 two]
  rfl

theorem StatementUnit.grantSlot_none (seals : ∀ x ∈ su.slots, x.statement.kind = .sealed) : su.grantSlot = none := by
  rw [StatementUnit.grantSlot_full one two, List.find?_eq_none.2 fun x mem => by simp [seals x mem]]
  rfl

theorem StatementUnit.grantSlot_report {before after : List Slot} {x : Slot} (slots : su.slots = before ++ x :: after)
    (seals : ∀ y ∈ before, y.statement.kind = .sealed) (report : x.statement.kind = .report) :
    su.grantSlot = some x.no := by
  have first : su.slots.find? (fun x => x.statement.kind == .report) = some x :=
    find?_first slots (fun y mem => by simp [seals y mem]) (beq_iff_eq.2 report)
  rw [StatementUnit.grantSlot_full one two, first]
  rfl

end Full

/-! ### The close that follows, and the seal (R143, R146, R147) -/

theorem State.pendingClose_closes {x : Nat} (steady : s.cc.phase = .steady) (target : s.cc.pendingTarget = some x) :
    s.pendingClose st = s.closeAt st x := by
  rw [State.pendingClose, steady, target]

theorem State.pendingClose_idle (idle : s.cc.phase ≠ .steady ∨ s.cc.pendingTarget = none) : s.pendingClose st = s := by
  unfold State.pendingClose
  split
  next steady target =>
    rcases idle with phase | none
    · exact absurd steady phase
    · exact absurd (none.symm.trans target) nofun
  · rfl

/-- The part that asks for the slot of its seal: the window stops, and the sealing set is marked forced or not. -/
def State.askingSlot (s : State) (x : SealingSet) (forced : Bool) : State :=
  { s with cc := { s.cc with sealing := some { x with forced := forced }, sealTimer := none } }

section Stands

variable {x : SealingSet} (stands : s.cc.sealing = some x) (forced : Bool)

include stands

theorem State.makeSeal_granted {no : SlotNo} (granted : s.su.grantSlot = some no) :
    s.makeSeal st forced =
      ((s.askingSlot x forced).completeSeal st { x with forced := forced } no).pendingClose st := by
  simp only [State.makeSeal, stands, granted]
  rfl

theorem State.makeSeal_deferred (full : s.su.grantSlot = none) :
    s.makeSeal st forced =
      { s.askingSlot x forced with cc := { (s.askingSlot x forced).cc with phase := .deferred } } := by
  simp only [State.makeSeal, stands, full]
  rfl

end Stands

theorem State.completeDeferred_granted {x : SealingSet} {no : SlotNo} (deferred : s.cc.phase = .deferred)
    (stands : s.cc.sealing = some x) (granted : s.su.grantSlot = some no) :
    s.completeDeferred st = (s.completeSeal st x no).pendingClose st := by
  rw [State.completeDeferred, deferred, stands, granted]

theorem State.completeDeferred_idle
    (idle : s.cc.phase ≠ .deferred ∨ s.cc.sealing = none ∨ s.su.grantSlot = none) : s.completeDeferred st = s := by
  unfold State.completeDeferred
  split
  next deferred stands granted =>
    rcases idle with phase | none | full
    · exact absurd deferred phase
    · exact absurd (none.symm.trans stands) nofun
    · exact absurd (full.symm.trans granted) nofun
  · rfl

/-! ### The seal window (R140) -/

/-- The seal window has run out: no timer stands, or its end is reached. -/
theorem State.windowOver_iff : s.windowOver = true ↔ ∀ d, s.cc.sealTimer = some d → d ≤ s.now := by
  unfold State.windowOver
  cases s.cc.sealTimer <;> simp

theorem State.windowExpiry_runs (running : s.cc.sealTimer = none ∨ ¬s.windowOver = true) : s.windowExpiry st = s := by
  rw [State.windowOver_iff] at running
  cases timer : s.cc.sealTimer with
  | none => simp only [State.windowExpiry, timer]
  | some d =>
    have before : ¬d ≤ s.now := by simpa [timer] using running
    simp only [State.windowExpiry, timer, if_neg before]

/-- The window runs out: the timer stops, and in SEALING the seal is made, not forced. -/
theorem State.windowExpiry_ends (past : s.windowOver = true) (timer : s.cc.sealTimer ≠ none) :
    s.windowExpiry st =
      if s.cc.phase = .sealing then { s with cc := { s.cc with sealTimer := none } : State }.makeSeal st false
      else { s with cc := { s.cc with sealTimer := none } } := by
  obtain ⟨d, timer⟩ := Option.ne_none_iff_exists'.1 timer
  simp only [State.windowExpiry, timer, if_pos (State.windowOver_iff.1 past d timer)]

/-! ### SEAL (R146) -/

section Swept

variable (phase : s.cc.phase = .sweeping ∨ s.cc.phase = .sealing) (cursor : s.ct.cursor = none)

include phase cursor

/-- Once the sweep has ended, the seal is made when the window is over, or, forced, when a close is pending. -/
theorem State.sealDue_swept :
    s.sealDue st = if s.windowOver || s.cc.pendingTarget.isSome then s.makeSeal st (!s.windowOver) else s := by
  rcases phase with phase | phase <;> simp [State.sealDue, phase, cursor]

theorem State.sealDue_over (past : s.windowOver = true) : s.sealDue st = s.makeSeal st false := by
  rw [State.sealDue_swept phase cursor, past]
  rfl

theorem State.sealDue_forced (running : ¬s.windowOver = true) (target : s.cc.pendingTarget ≠ none) :
    s.sealDue st = s.makeSeal st true := by
  rw [State.sealDue_swept phase cursor, Bool.eq_false_iff.2 running, Option.isSome_iff_ne_none.2 target]
  rfl

theorem State.sealDue_waits (running : ¬s.windowOver = true) (noTarget : s.cc.pendingTarget = none) :
    s.sealDue st = s := by
  rw [State.sealDue_swept phase cursor, Bool.eq_false_iff.2 running, noTarget]
  rfl

end Swept

theorem State.sealDue_idle (idle : s.cc.phase = .steady ∨ s.cc.phase = .deferred ∨ s.ct.cursor ≠ none) :
    s.sealDue st = s := by
  refine if_neg ?_
  rcases idle with steady | deferred | sweeps
  · simp [steady]
  · simp [deferred]
  · simp [sweeps]

/-- Settles O48: the three commands by phase, cursor, window and target; the seal by the slot it is granted, the slot by
what the two hold, and the close that follows. -/
theorem sealsAreMade : Obligations.SealsAreMade := by
  refine ⟨fun s st t hp hs => ?_,
    fun s st forced x stands => ⟨fun no => State.makeSeal_granted stands forced, State.makeSeal_deferred stands forced⟩,
    fun su => ⟨StatementUnit.grantSlot_one, StatementUnit.grantSlot_two, fun one two =>
      ⟨StatementUnit.grantSlot_none one two, fun _ _ _ => StatementUnit.grantSlot_report one two⟩⟩,
    fun s st => ⟨fun x => State.pendingClose_closes, State.pendingClose_idle⟩⟩
  intro u ended stopped
  have expires {v} (acts : u.windowExpiry st = v) : exec (.sealWindowExpiry t) s = .next (finish v) :=
    acts ▸ event_enrolled (f := State.windowExpiry) hp hs t
  have seals {v} (acts : u.sealDue st = v) : exec (.makeSeal t) s = .next (finish v) :=
    acts ▸ event_enrolled (f := State.sealDue) hp hs t
  have completes {v} (acts : u.completeDeferred st = v) : exec (.deferredSealCompletion t) s = .next (finish v) :=
    acts ▸ event_enrolled (f := State.completeDeferred) hp hs t
  have windowOver : u.windowOver = true ↔ ended := State.windowOver_iff
  refine ⟨fun window timer => ⟨fun sweeping => ?_, fun sealing => ?_⟩, fun runs => ?_, fun phase cursor =>
    ⟨fun window => ?_, fun runs target => ?_, fun runs noTarget => ?_⟩, fun idle => ?_,
    fun x no deferred stands granted => ?_, fun idle => ?_⟩
  · have notSealing : u.cc.phase ≠ .sealing := fun sealing => Phase.noConfusion (sweeping.symm.trans sealing)
    exact expires ((State.windowExpiry_ends (windowOver.2 window) timer).trans (if_neg notSealing))
  · exact expires ((State.windowExpiry_ends (windowOver.2 window) timer).trans (if_pos sealing))
  · exact expires (State.windowExpiry_runs (runs.imp_right windowOver.not.2))
  · exact seals (State.sealDue_over phase cursor (windowOver.2 window))
  · exact seals (State.sealDue_forced phase cursor (windowOver.not.2 runs) target)
  · exact seals (State.sealDue_waits phase cursor (windowOver.not.2 runs) noTarget)
  · exact seals (State.sealDue_idle idle)
  · exact completes (State.completeDeferred_granted deferred stands granted)
  · exact completes (State.completeDeferred_idle idle)

end Sys2Proof.Machine
end


section
/-! ## SET_RATE (R155) -/

namespace Sys2Proof.Machine

variable {s : State} {rate fee effective : Nat} {e a : Staged} {l : List Staged}

/-! ### An entry put in its place -/

theorem stage_over (same : e.effective = a.effective) : stage e (a :: l) = e :: l :=
  (if_neg (Nat.not_lt.2 same.ge)).trans (if_pos same)

theorem stage_behind (behind : a.effective < e.effective) : stage e (a :: l) = a :: stage e l :=
  (if_neg (Nat.not_lt.2 behind.le)).trans (if_neg behind.ne')

/-! ### The refusals, and the entry staged -/

section Good

variable (good : ¬(1500 < rate ∨ 99 < fee ∨ effective = 0))

include good

theorem State.setRate_pastCycle (past : effective ≤ s.cc.openCycle) :
    s.setRate rate fee effective = (s, .plain .pastCycle) :=
  (if_neg good).trans (if_pos past)

variable (later : s.cc.openCycle < effective)

include later

theorem State.setRate_scheduleFull (full : s.cc.schedule.length = 2)
    (fresh : ∀ e ∈ s.cc.schedule, effective ≠ e.effective) :
    s.setRate rate fee effective = (s, .plain .scheduleFull) := by
  refine (if_neg good).trans ((if_neg later.not_ge).trans (if_pos ⟨full.ge, ?_⟩))
  simpa using fun e mem => (fresh e mem).symm

/-- With room for one more, or over an entry of its cycle, the entry is staged. -/
theorem State.setRate_staged (room : s.cc.schedule.length < 2 ∨ ∃ e ∈ s.cc.schedule, effective = e.effective)
    (placed : stage ⟨effective, ⟨rate, fee⟩⟩ s.cc.schedule = l) :
    s.setRate rate fee effective =
      ({ s with cc := { s.cc with schedule := l } },
        ⟨.ok, (s.cc.active.getD ⟨0, 0⟩).values ++ scheduleValues l⟩) := by
  subst placed
  refine (if_neg good).trans ((if_neg later.not_ge).trans (if_neg ?_))
  rintro ⟨full, fresh⟩
  rcases room with below | ⟨e, mem, same⟩
  · exact below.not_ge full
  · exact fresh (List.any_eq_true.2 ⟨e, mem, beq_iff_eq.2 same.symm⟩)

end Good

/-- Settles O52: the refusals in their order, then the place of the entry by what the schedule holds. -/
theorem setRateStages : Obligations.SetRateStages := by
  intro s st t token rate fee effective x ready reads e refused staged
  obtain ⟨hp, -, hi⟩ := id ready
  have reaches : cmdSetRate rate fee effective (begun s t) = (begun s t).setRate rate.toNat fee.toNat x :=
    (withCycle_good reads _ _).trans (enrolled_begun ready t _)
  have refuses {status} (plain : (begun s t).setRate rate.toNat fee.toNat x = (begun s t, .plain status)) :
      refused status := write_refuses hp hi (reaches.trans plain)
  refine ⟨fun bad => refuses (State.setRate_badSetting bad), fun rateFits feeFits named => ?_⟩
  have good : ¬(1500 < rate.toNat ∨ 99 < fee.toNat ∨ x = 0) := by omega
  refine ⟨fun past => refuses (State.setRate_pastCycle good past), fun later => ?_⟩
  have stages {l} (room : s.cc.schedule.length < 2 ∨ ∃ y ∈ s.cc.schedule, x = y.effective)
      (placed : stage e s.cc.schedule = l) : staged l :=
    write_says hp hi (reaches.trans (State.setRate_staged (s := begun s t) good later room placed))
  refine ⟨fun empty => ?_, fun a one => ?_, fun a b two ascending =>
    ⟨fun same => ?_, fun same => ?_, fun notA notB => ?_⟩⟩
  · exact stages (.inl (by simp [empty])) (by rw [empty]; rfl)
  · exact stages (.inl (by simp [one])) (by rw [one]; rfl)
  · exact stages (.inr ⟨a, by simp [two], same⟩) (by rw [two, stage_over same])
  · have behind : a.effective < e.effective := ascending.trans_eq same.symm
    exact stages (.inr ⟨b, by simp [two], same⟩) (by rw [two, stage_behind behind, stage_over same])
  · have full : (begun s t).cc.schedule.length = 2 := congrArg List.length two
    refine refuses (State.setRate_scheduleFull good later full ?_)
    rw [show (begun s t).cc.schedule = [a, b] from two]
    simp [notA, notB]

end Sys2Proof.Machine
end


section
/-! ## REPORT and READ_STATEMENT (R158, R159, R163 to R167) -/

namespace Sys2Proof.Machine

variable {s : State} {st : Settings} {su : StatementUnit} {no : SlotNo}

/-! ### A statement placed (R159, R166) -/

/-- The read position stays with the oldest statement when another slot is placed in. -/
theorem StatementUnit.place_readPos_kept (x : Statement) (other : ∀ y, su.slots.head? = some y → y.no ≠ no) :
    (su.place no x).readPos = su.readPos := by
  rw [StatementUnit.place]
  cases oldest : su.slots.head? with
  | none => rfl
  | some y => exact if_neg (beq_iff_eq.not.2 (other y oldest))

/-- Placing over the oldest statement abandons its reading. -/
theorem StatementUnit.place_readPos_oldest (x : Statement) {y : Slot} (oldest : su.slots.head? = some y)
    (same : y.no = no) : (su.place no x).readPos = 0 := by
  rw [StatementUnit.place, oldest]
  exact if_pos (beq_iff_eq.2 same)

/-! ### REPORT (R163, R164) -/

theorem State.report_placed (granted : s.su.grantSlot = some no) :
    s.report st = (s.placeStatement no (s.reportSource st),
      ⟨.ok, [.num2 s.su.nextNumber, .cycle (some s.cc.openCycle)]⟩) := by
  rw [State.report, granted]

theorem State.report_lost (full : s.su.grantSlot = none) :
    s.report st = ({ s with su := { s.su with reportLost := true } }, .plain .slotsFull) := by
  rw [State.report, full]

/-! ### READ_STATEMENT (R165, R167) -/

theorem State.readStatement_empty (empty : s.su.slots = []) : s.readStatement st = (s, .plain .nothing) := by
  rw [State.readStatement, empty]

section Oldest

variable {x : Slot} {rest : List Slot} (slots : s.su.slots = x :: rest)

include slots

/-- A part before the last is read: the position advances. -/
theorem State.readStatement_advances (before : s.su.readPos < x.statement.lines.length) :
    s.readStatement st =
      ({ s with su := { s.su with readPos := s.su.readPos + 1 } }, ⟨.ok, x.statement.partValues s.su.readPos⟩) := by
  rw [State.readStatement, slots]
  exact if_pos before

/-- The last part is read: its slot is EMPTY, and a deferred seal completes. -/
theorem State.readStatement_completes (last : x.statement.lines.length ≤ s.su.readPos) :
    s.readStatement st =
      ({ s with su := { s.su with slots := rest, readPos := 0, reportLost := false } : State }.completeDeferred st,
        ⟨.ok, x.statement.partValues s.su.readPos⟩) := by
  have freed : s.su.freeOldest = { s.su with slots := rest, readPos := 0, reportLost := false } := by
    rw [StatementUnit.freeOldest, slots, List.tail_cons]
  rw [State.readStatement, ← freed, slots]
  exact if_neg last.not_gt

end Oldest

/-- Settles O51: the values of a part, REPORT by the slot it is granted, READ_STATEMENT by the oldest statement and the
part at the read position, the slots after a placing, and the deferred seal that a freed slot completes. -/
theorem reportsAndReads : Obligations.ReportsAndReads := by
  refine ⟨⟨fun x => rfl, fun l => rfl⟩, fun s st t token ready => ?_,
    fun su no x => ⟨rfl, rfl, rfl, StatementUnit.place_readPos_kept x, fun y => StatementUnit.place_readPos_oldest x⟩,
    fun s st => ⟨fun x no => State.completeDeferred_granted, State.completeDeferred_idle⟩⟩
  intro u
  refine ⟨fun no granted => ?_, fun full => ?_, fun empty => ?_, fun x rest slots => ?_⟩
  · exact enrolled_says ready (State.report_placed (s := u) granted)
  · exact enrolled_says ready (State.report_lost (s := u) full)
  · exact enrolled_says ready (State.readStatement_empty (s := u) empty)
  · intro k part values
    have read : x.statement.partValues k = values := by
      cases position : k with
      | zero => simp only [values, part, position]; rfl
      | succ j => simp only [values, part, position]; rfl
    rw [← read]
    exact ⟨fun before => enrolled_says ready (State.readStatement_advances (s := u) slots before),
      fun last => enrolled_says ready (State.readStatement_completes (s := u) slots last)⟩

end Sys2Proof.Machine
end

section
/-! ## ENROL (R185, R178) -/

namespace Sys2Proof.Machine

variable {f : EnrolFields} {st : Settings}

/-! ### Unsigned amounts (R97) -/

theorem readUnsigned_eq_some_iff (a : AmountField) (n : Nat) :
    readUnsigned a = some n ↔ readSigned a = some (n : Int) := by
  rw [readUnsigned]
  cases readSigned a with
  | none => simp
  | some v =>
    cases v with
    | ofNat m => simp
    | negSucc m => simp

/-- An unsigned amount is twelve digits behind the sign byte 00, or twelve zeros behind 01 (R1, R97). -/
theorem readUnsigned_iff (a : AmountField) (n : Nat) :
    readUnsigned a = some n ↔
      bcdNat? 12 (a.toNat % 2 ^ 48) = some n ∧ (a.toNat / 2 ^ 48 = 0 ∨ (a.toNat / 2 ^ 48 = 1 ∧ n = 0)) := by
  rw [readUnsigned_eq_some_iff, readSigned_iff]
  constructor
  · rintro ⟨m, digits, ⟨plus, same⟩ | ⟨minus, same⟩⟩
    · obtain rfl := Int.ofNat.inj same
      exact ⟨digits, .inl plus⟩
    · obtain ⟨rfl, rfl⟩ : m = 0 ∧ n = 0 := by omega
      exact ⟨digits, .inr ⟨minus, rfl⟩⟩
  · rintro ⟨digits, plus | ⟨minus, rfl⟩⟩
    · exact ⟨n, digits, .inl ⟨plus, rfl⟩⟩
    · exact ⟨0, digits, .inr ⟨minus, rfl⟩⟩

theorem readUnsigned_le {a : AmountField} {n : Nat} (read : readUnsigned a = some n) : n ≤ 999999999999 :=
  Nat.le_pred_of_lt (bcdNat?_lt ((readUnsigned_iff a n).1 read).1)

/-! ### The settings and their ranges (R185) -/

/-- The setting with index `i` lies within its range; the clamped settings and the enables have none (R185). -/
def settingWithin (f : EnrolFields) (i : Nat) : Prop :=
  match i with
  | 1 => 1 ≤ f.station.toNat ∧ f.station.toNat ≤ 63
  | 2 => 256 ≤ f.cardArea.toNat
  | 3 => 32 ≤ f.holdArea.toNat ∧ f.holdArea.toNat ≤ 1024
  | 4 => 512 ≤ f.trailArea.toNat ∧ f.cardArea.toNat + f.holdArea.toNat + f.trailArea.toNat ≤ 3584
  | 5 => ∃ x, readUnsigned f.cardCeiling = some x ∧ 100 ≤ x ∧ x ≤ 9999999
  | 6 => ∃ x, readUnsigned f.floatLimit = some x ∧ 100 ≤ x
  | 7 => ∃ x, readUnsigned f.exposureLimit = some x ∧ 100 ≤ x
  | 8 => ∃ x y, readUnsigned f.exposureBand = some x ∧ readUnsigned f.exposureLimit = some y ∧ x ≤ y
  | 13 => f.initialRate.toNat ≤ 1500
  | 14 => f.initialFee.toNat ≤ 99
  | 17 => f.stopOnError.toNat ≤ 1
  | _ => True

/-- The index of a setting that ENROL can refuse (R185). -/
def settingTested (i : Nat) : Prop := 1 ≤ i ∧ i ≤ 8 ∨ i = 13 ∨ i = 14 ∨ i = 17

theorem settingWithin_of_not_tested {i : Nat} (free : ¬settingTested i) : settingWithin f i := by
  unfold settingWithin
  unfold settingTested at free
  split
  iterate 11 exact absurd (by decide) free
  trivial

/-- The settings `st` are those of the fields `f`: as given, or clamped at the nearest value of their range (R185). Of the
enables the bits of the thirteen sources are kept (log 45). -/
structure SettingsGiven (f : EnrolFields) (st : Settings) : Prop where
  station : st.station = f.station.toNat
  cardArea : st.cardArea = f.cardArea.toNat
  holdArea : st.holdArea = f.holdArea.toNat
  trailArea : st.trailArea = f.trailArea.toNat
  cardCeiling : readUnsigned f.cardCeiling = some st.cardCeiling
  floatLimit : readUnsigned f.floatLimit = some st.floatLimit
  exposureLimit : readUnsigned f.exposureLimit = some st.exposureLimit
  exposureBand : readUnsigned f.exposureBand = some st.exposureBand
  holdLifetime : st.holdLifetime = max 30 (min 600 f.holdLifetime.toNat)
  sealWindow : st.sealWindow = max 30 (min 900 f.sealWindow.toNat)
  requestSpacing : st.requestSpacing = min 7 f.requestSpacing.toNat
  retention : st.retention = max 1 (min 60 f.retention.toNat)
  initialRate : st.initialRate = f.initialRate.toNat
  initialFee : st.initialFee = f.initialFee.toNat
  stopOnError : st.stopOnError = (f.stopOnError.toNat == 1)
  detectEnables : st.detectEnables = f.detectEnables.setWidth 13
  latchEnables : st.latchEnables = f.latchEnables.setWidth 13

/-! ### Reading them in order (R185) -/

/-- A reading of the fields `f` is right: it refuses with the index of the first setting outside its range, or every
setting is within its range and the reading gives them. -/
inductive ReadsInOrder (f : EnrolFields) : Except Nat Settings → Prop where
  | refused {i : Nat} (out : ¬settingWithin f i) (before : ∀ j, j < i → settingWithin f j) : ReadsInOrder f (.error i)
  | applied {st : Settings} (all : ∀ i, settingWithin f i) (gives : SettingsGiven f st) : ReadsInOrder f (.ok st)

/-- The test of setting `i`, behind the settings below `k` and with none tested between: it refuses with `i`, or the reading
goes on. -/
theorem ReadsInOrder.test {c : Prop} [Decidable c] {x : Except Nat Settings} {k i : Nat}
    (outside : c ↔ ¬settingWithin f i) (before : ∀ j, j < k → settingWithin f j)
    (next : (∀ j, j < i + 1 → settingWithin f j) → ReadsInOrder f x)
    (free : ∀ j, k ≤ j → j < i → ¬settingTested j := by unfold settingTested; omega) :
    ReadsInOrder f (if c then .error i else x) := by
  have passed (j : Nat) (below : j < i) : settingWithin f j :=
    (Nat.lt_or_ge j k).elim (before j) fun behind => settingWithin_of_not_tested (free j behind below)
  split
  next out => exact .refused (outside.1 out) passed
  next inside =>
    refine next fun j upTo => ?_
    rcases Nat.lt_succ_iff_lt_or_eq.1 upTo with below | rfl
    · exact passed j below
    · exact not_not.1 (mt outside.2 inside)

/-- ENROL reads its settings in the order of R185. -/
theorem readSettings_reads (f : EnrolFields) : ReadsInOrder f (readSettings f) := by
  unfold readSettings
  refine .test (k := 0) Iff.rfl nofun fun p1 => ?_
  refine .test Nat.not_le.symm p1 fun p2 => ?_
  refine .test Iff.rfl p2 fun p3 => ?_
  refine .test Iff.rfl p3 fun p4 => ?_
  cases ceiling : readUnsigned f.cardCeiling with
  | none => exact .refused (i := 5) (by simp [settingWithin, ceiling]) p4
  | some cardCeiling =>
  refine .test (i := 5) (by simp [settingWithin, ceiling, Config.cardAmountMax]) p4 fun p5 => ?_
  cases float : readUnsigned f.floatLimit with
  | none => exact .refused (i := 6) (by simp [settingWithin, float]) p5
  | some floatLimit =>
  refine .test (i := 6) (by simp [settingWithin, float]) p5 fun p6 => ?_
  cases limit : readUnsigned f.exposureLimit with
  | none => exact .refused (i := 7) (by simp [settingWithin, limit]) p6
  | some exposureLimit =>
  refine .test (i := 7) (by simp [settingWithin, limit]) p6 fun p7 => ?_
  cases band : readUnsigned f.exposureBand with
  | none => exact .refused (i := 8) (by simp [settingWithin, band]) p7
  | some exposureBand =>
  refine .test (i := 8) (by simp [settingWithin, band, limit]) p7 fun p8 => ?_
  refine .test Nat.not_le.symm p8 fun p13 => ?_
  refine .test Nat.not_le.symm p13 fun p14 => ?_
  refine .test Nat.not_le.symm p14 fun p17 => ?_
  refine .applied (fun i => ?_) ⟨rfl, rfl, rfl, rfl, ceiling, float, limit, band, rfl, rfl, Nat.zero_max _, rfl, rfl, rfl,
    rfl, rfl, rfl⟩
  rcases Nat.lt_or_ge i 18 with below | behind
  · exact p17 i below
  · exact settingWithin_of_not_tested (by unfold settingTested; omega)

/-- The first setting outside its range is refused, and no other. -/
theorem readSettings_error_iff (i : Nat) :
    readSettings f = .error i ↔ ¬settingWithin f i ∧ ∀ j, j < i → settingWithin f j := by
  have reads := readSettings_reads f
  constructor
  · intro read
    rw [read] at reads
    cases reads with
    | refused out before => exact ⟨out, before⟩
  · rintro ⟨out, before⟩
    generalize readSettings f = x at reads
    cases reads with
    | applied all => exact absurd (all i) out
    | @refused k out' before' =>
      rcases Nat.lt_trichotomy k i with below | rfl | above
      · exact absurd (before k below) out'
      · rfl
      · exact absurd (before' i above) out

theorem readSettings_of_within (all : ∀ i, settingWithin f i) : ∃ st, readSettings f = .ok st := by
  have reads := readSettings_reads f
  generalize readSettings f = x at reads
  cases reads with
  | @applied st _ _ => exact ⟨st, rfl⟩
  | @refused i out _ => exact absurd (all i) out

theorem readSettings_ok (read : readSettings f = .ok st) : (∀ i, settingWithin f i) ∧ SettingsGiven f st := by
  have reads := readSettings_reads f
  rw [read] at reads
  cases reads with
  | applied all gives => exact ⟨all, gives⟩

/-! ### What is applied (R185) -/

theorem SettingsGiven.stopOnError_iff (gives : SettingsGiven f st) : st.stopOnError = true ↔ f.stopOnError = 1 := by
  rw [gives.stopOnError, beq_iff_eq, ← BitVec.toNat_inj]
  exact Iff.rfl

theorem SettingsGiven.enable (gives : SettingsGiven f st) {k : Nat} (source : k < 13) :
    st.detectEnables.getLsbD k = f.detectEnables.getLsbD k ∧ st.latchEnables.getLsbD k = f.latchEnables.getLsbD k := by
  simp [gives.detectEnables, gives.latchEnables, source]

/-- The applied settings that the fields bound: the areas, the station number, the rate and the fee. -/
theorem SettingsGiven.numbers_in_range (gives : SettingsGiven f st) (all : ∀ i, settingWithin f i) :
    (1 ≤ st.station ∧ st.station ≤ 63) ∧ 256 ≤ st.cardArea ∧ (32 ≤ st.holdArea ∧ st.holdArea ≤ 1024) ∧
      (512 ≤ st.trailArea ∧ st.cardArea + st.holdArea + st.trailArea ≤ 3584) ∧ st.initialRate ≤ 1500 ∧
      st.initialFee ≤ 99 := by
  rw [gives.station, gives.cardArea, gives.holdArea, gives.trailArea, gives.initialRate, gives.initialFee]
  exact ⟨all 1, all 2, all 3, all 4, all 13, all 14⟩

theorem SettingsGiven.amounts_in_range (gives : SettingsGiven f st) (all : ∀ i, settingWithin f i) :
    (100 ≤ st.cardCeiling ∧ st.cardCeiling ≤ 9999999) ∧ (100 ≤ st.floatLimit ∧ st.floatLimit ≤ 999999999999) ∧
      (100 ≤ st.exposureLimit ∧ st.exposureLimit ≤ 999999999999) ∧ st.exposureBand ≤ st.exposureLimit := by
  obtain ⟨ceiling, read, ceilingRange⟩ := all 5
  obtain rfl := Option.some.inj (read.symm.trans gives.cardCeiling)
  obtain ⟨float, read, floatLeast⟩ := all 6
  obtain rfl := Option.some.inj (read.symm.trans gives.floatLimit)
  obtain ⟨limit, read, limitLeast⟩ := all 7
  obtain rfl := Option.some.inj (read.symm.trans gives.exposureLimit)
  obtain ⟨band, limit, readBand, read, within⟩ := all 8
  obtain rfl := Option.some.inj (readBand.symm.trans gives.exposureBand)
  obtain rfl := Option.some.inj (read.symm.trans gives.exposureLimit)
  exact ⟨ceilingRange, ⟨floatLeast, readUnsigned_le gives.floatLimit⟩,
    ⟨limitLeast, readUnsigned_le gives.exposureLimit⟩, within⟩

theorem SettingsGiven.clamped_in_range (gives : SettingsGiven f st) :
    (30 ≤ st.holdLifetime ∧ st.holdLifetime ≤ 600) ∧ (30 ≤ st.sealWindow ∧ st.sealWindow ≤ 900) ∧
      st.requestSpacing ≤ 7 ∧ 1 ≤ st.retention ∧ st.retention ≤ 60 := by
  rw [gives.holdLifetime, gives.sealWindow, gives.requestSpacing, gives.retention]
  omega

/-! ### What ENROL does (R185) -/

section Effect

variable {s : State}

theorem cmdEnrol_applied (clear : s.tp.settings = none) (read : readSettings f = .ok st) :
    cmdEnrol f s = (s.applySettings st, ⟨.ok, st.values⟩) := by
  simp only [cmdEnrol, clear, read]

theorem cmdEnrol_outside {i : Nat} (clear : s.tp.settings = none) (read : readSettings f = .error i) :
    cmdEnrol f s = (s, ⟨.badSetting, [.num1 i]⟩) := by
  simp only [cmdEnrol, clear, read]

theorem cmdEnrol_again (enrolled : s.tp.settings = some st) : cmdEnrol f s = (s, .plain .alreadyEnrolled) := by
  rw [cmdEnrol, enrolled]

end Effect

/-- Settles O10: the fields are read setting by setting in the order of R185, and ENROL answers by what is read. -/
theorem enrolSetsThePartUp : Obligations.EnrolSetsThePartUp := by
  refine ⟨readUnsigned_iff, fun f => ?_, fun s t token f hp hi => ⟨fun st clear read => ?_, fun i clear read => ?_,
    fun st enrolled => ?_⟩⟩
  · refine ⟨readSettings_error_iff, readSettings_of_within, fun st read => ?_⟩
    obtain ⟨all, gives⟩ := readSettings_ok read
    exact ⟨all, gives.station, gives.cardArea, gives.holdArea, gives.trailArea, gives.cardCeiling, gives.floatLimit,
      gives.exposureLimit, gives.exposureBand, gives.holdLifetime, gives.sealWindow, gives.requestSpacing, gives.retention,
      gives.initialRate, gives.initialFee, gives.stopOnError_iff, fun _ => gives.enable⟩
  · obtain ⟨all, gives⟩ := readSettings_ok read
    obtain ⟨⟨station, station'⟩, cards, ⟨holds, holds'⟩, ⟨trail, areas⟩, rate, fee⟩ := gives.numbers_in_range all
    obtain ⟨⟨ceiling, ceiling'⟩, ⟨float, float'⟩, ⟨limit, limit'⟩, band⟩ := gives.amounts_in_range all
    obtain ⟨⟨life, life'⟩, ⟨window, window'⟩, spacing, retention, retention'⟩ := gives.clamped_in_range
    exact ⟨write_says hp hi (cmdEnrol_applied (s := begun s t) clear read), station, station', cards, holds, holds', trail,
      areas, ceiling, ceiling', float, float', limit, limit', band, life, life', window, window', spacing, retention,
      retention', rate, fee⟩
  · exact write_says hp hi (cmdEnrol_outside (s := begun s t) clear read)
  · exact write_refuses hp hi (cmdEnrol_again (s := begun s t) enrolled)

end Sys2Proof.Machine
end

section
/-! ## One step, and what every command keeps (R190; logs 1 and 2) -/

namespace Sys2Proof.Machine

variable {s : State}

/-! ### The queue and the step (log 2) -/

theorem step_cons {c : Instr} {rest : List Instr} (queue : s.pending = c :: rest) :
    step s = exec c { s with pending := rest } := by
  rw [step, queue]

theorem step_nil (queue : s.pending = []) : step s = .next s := by
  rw [step, queue]

/-- Settles O1, by the two forms of the queue. -/
theorem stepRunsFrontCommand : Obligations.StepRunsFrontCommand :=
  ⟨fun _ _ _ => step_cons, fun _ => step_nil⟩

/-! ### The queue, the clock and main power (R190, log 1) -/

theorem ChangesOnly.pending_eq {ps : List Part} {t u : State} (changes : ChangesOnly ps t u) (kept : .queue ∉ ps) :
    u.pending = t.pending := changes .queue kept

theorem ChangesOnly.now_eq {ps : List Part} {t u : State} (changes : ChangesOnly ps t u) (kept : .now ∉ ps) :
    u.now = t.now := changes .now kept

/-- Without main power an event only lets time pass (R190). -/
theorem exec_unpowered {i : Instr} (off : s.power = false) (cold : ∀ t, i ≠ .coldStart t) (warm : ∀ t, i ≠ .warmStart t)
    (loss : ∀ t, i ≠ .retentionLoss t) : exec i s = .next (finish (s.atMoment i.moment)) := by
  rw [exec_event i s cold warm loss, event_unpowered off]

/-- Settles O2: no command touches the clock or the queue after the clock has come to its moment; without main power an
event does nothing more. -/
theorem everyCommandCompletes : Obligations.EveryCommandCompletes := by
  refine ⟨fun i s => ?_, fun i s => exec_unpowered⟩
  obtain ⟨t, answers, changes⟩ := exec_next i s
  have queue : t.pending = s.pending := (changes.pending_eq (by decide)).trans (s.atMoment_pending i.moment)
  have clock : t.now = max s.now i.moment := (changes.now_eq (by decide)).trans (s.atMoment_now i.moment)
  exact ⟨t, answers, queue, clock⟩

end Sys2Proof.Machine
end
